-- ==== Sys2Proof/Word.lean ====
section
/-!
DEFINITION. The words the manual's registers, bytes and characters are made of (00 R7, R8; 17 R463), and the
sparse table that State keeps its large memories in.
-/

namespace Sys2Proof

/-- A 32-bit register word (17 R463). -/
abbrev Word := BitVec 32

/-- A byte of a message, packet, record or SRAM. -/
abbrev Byte := BitVec 8

/-- A 16-bit sample container (04 R106). -/
abbrev Container := BitVec 16

/-- A 12-bit slice code (03 R79). -/
abbrev Code := BitVec 12

/-- A sparse table: strictly rising keys, and no entry equal to what an unlisted key reads as (the default is named
where the table is read). -/
abbrev Tab (α : Type) := List (Nat × α)

end Sys2Proof
end

