-- ==== Sys2Proof/Syntax.lean ====
section
/-!
DEFINITION. The commands of the hub: one constructor of `Instr` for each row of spec/opcode_table.json.
The table gives no operands; a constructor's operands are the data that the row's rules take from outside the hub
(notes/assumptions/1.md).
-/

namespace Sys2Proof

/-- The three access paths to the registers (17 R467). -/
inductive Path where
  | spi
  | downlink
  | stake
  deriving DecidableEq, Repr

/-- A lane the hub receives on (09 R284). -/
inductive RxLane where
  | dla
  | dlb
  | brixP
  | brixQ
  deriving DecidableEq, Repr

/-- The two downlinks (09 R263). -/
inductive Downlink where
  | a
  | b
  deriving DecidableEq, Repr

/-- The two Brix ports (12 R336). -/
inductive Port where
  | p
  | q
  deriving DecidableEq, Repr

/-- A character of a serial lane: a data byte, or the K-character with that byte value (09 R264, R265). -/
inductive LChar where
  | d (b : Byte)
  | k (b : Byte)
  deriving DecidableEq, Repr

/-- What an error check of a stored word or burst finds (14 R399, R401). -/
inductive EccResult where
  | clean
  | corrected
  | uncorrectable
  deriving DecidableEq, Repr

/-- Boundary-scan instructions (16 R461). -/
inductive ScanInstr where
  | bypass
  | sample
  | preload
  | extest
  | acExtest
  | other
  deriving DecidableEq, Repr

/-- A sample as it is taken: the channel's input, the input that the look-ahead of the ×64 and ×8 gains reads for the next
sample (03 R78, R84), in nV; the departure in codes of the delivering converter from the code delivered to it, and the
outcome of its self-check (true: it failed); the same of the converter that runs beside it (04 R104, R114, R122). -/
structure SampleIn where
  v : Int
  la64 : Int
  la8 : Int
  dev : Int
  selfErr : Bool
  dev2 : Int
  selfErr2 : Bool
  deriving DecidableEq, Repr

/-- A frame as it is received: its symbols, and the fraction of a crossing at which the first one arrived. -/
structure LineFrame where
  syms : List (BitVec 10)
  frac : BitVec 24
  deriving DecidableEq, Repr

/-- A receive lane that meets a loss condition, and whether a signal is present (09 R284). -/
structure LaneLoss where
  lane : RxLane
  signal : Bool
  deriving DecidableEq, Repr

/-- What reading a copy or a slot of the configuration store finds: the pages in which errors were corrected, and a page
beyond correction (14 Tables 14.3, 14.4). -/
structure StoreRead where
  corrected : List Nat
  bad : Option Nat
  deriving DecidableEq, Repr

/-- An engine that starts its firmware after a restart or a switch, and whether the firmware passes its own start check (15 R433). -/
structure EngineStart where
  engine : Nat
  startOk : Bool
  deriving DecidableEq, Repr

/-- A word of SRAM that is read beyond correction: its bank, its address in the bank and the column that is involved
(14 R401, R406, R413). -/
structure WordAt where
  bank : Nat
  addr : Nat
  column : Nat
  deriving DecidableEq, Repr

/-- A fragment that is taken out of its assembly, and the words of EVB 13 to 15 read beyond correction there, each with the
position in the channel list and the number of the container that it held (14 Table 14.4). -/
structure FragRead where
  seq : Nat
  ue : List (Nat × Nat × WordAt)
  deriving DecidableEq, Repr

/-- An index entry read beyond correction: its stack row, and whether the entry before it, or the header of its block, cannot be
read either (14 R409). -/
structure EntryLoss where
  row : Nat
  prevLost : Bool
  headerLost : Bool
  deriving DecidableEq, Repr

/-- What a read through the block index finds: in the block's own bursts, and in its index entry. -/
structure StackRead where
  ecc : EccResult
  entry : Option EntryLoss
  deriving DecidableEq, Repr

/-- Nothing wrong. -/
abbrev StackRead.clean : StackRead := ⟨.clean, none⟩

/-- Copies that disagree (14 Table 14.3): the two cores of an engine, or one of the three copies of a flip-flop of an island. -/
inductive Disagreement where
  | cores (engine : Nat)
  | voter (island : Nat)
  deriving DecidableEq, Repr

/-- An FW_CLOSE to accept: its ring, and what reading the slot back finds (15 R428). -/
structure CloseRead where
  ring : Nat
  read : StoreRead
  deriving DecidableEq, Repr

/-- A supply sag at an island: by how many thousandths of nominal its local supply has fallen (16 R446). -/
structure Sag where
  island : Nat
  permille : Nat
  deriving DecidableEq, Repr

/-- A settings copy as read, and whether it passes its check (16 Table 16.4). -/
structure CopyRead where
  read : StoreRead
  check : Bool
  deriving DecidableEq, Repr

/-- The commands of the hub, in the order of spec/opcode_table.json. -/
inductive Instr where
  | powerReset (rails : BitVec 9)
  | railsEnd
  | railLowEvt (rail mV : Nat)
  | pinReset (lowNs : Nat)
  | softReset (p : Path) (v : Word)
  | fuseEnd
  | settingsEnd (a b : CopyRead)
  | memtestEnd (repairs : List (Nat × Nat)) (failed : Option Nat)
  | stackEnd (phy index region : Bool) (before : Nat) (spares : List Nat)
  | imageEnd (boot golden : StoreRead)
  | linksEnd
  | pllLock
  | pllUnlock
  | samplingStart
  | sampleContainer (ch k : Nat) (v la64 la8 dev : Int) (selfErr : Bool) (other : Int × Bool)
  | stretch (sag : Sag)
  | stretchRestore (island : Nat)
  | longSag (island firstX count : Nat)
  | downlinkFrame (dl : Downlink) (f : LineFrame)
  | syncX
  | resync
  | orbitAct
  | calpulse
  | accept
  | orbitStart (temps : List (Nat × BitVec 16)) (cmFaults : List Nat)
  | gapStart
  | offlinePhaseEnd (station : Nat) (levelSums : List Nat)
  | pedestalUpdate (ch : Nat)
  | sliceFault (station slice : Nat)
  | calRunRequest (p : Path) (v : Word)
  | save (p : Path) (v : Word)
  | tempSetsSave
  | dcTestStart
  | dcTestCurrentOff
  | injectionReturn (src : Nat)
  | feChWrite (p : Path) (ch : Nat) (v : Word)
  | exchangeFrame (frac : BitVec 24)
  | timeReport (body : List Byte)
  | holdPhase
  | receiveLaneDown (lane : LaneLoss)
  | downlinkAligned (lane : RxLane)
  | downlinkUp (lane : RxLane)
  | refFreqCheck (lane : Option RxLane) (kHz ppmPerS diffPpb : Nat)
  | stake (ring : Nat)
  | roleArm (body : List Byte)
  | launchBufferRead (sid : Nat)
  | launchFrame (frac : BitVec 24)
  | regWrite
  | inject
  | loadMeridian
  | loadStaff
  | traverseStart
  | fwActivate
  | roleSwapDecide
  | decide (body : List Byte)
  | roleSwap
  | capture (p : Path) (v : Word)
  | timeOrbitNextWrite (p : Path) (v : Word)
  | apply (p : Path) (v : Word)
  | stnStagedWrite (p : Path) (offset : Nat) (v : Word)
  | filterApplication (station : Nat)
  | filterOutput (ch : Nat)
  | detectorWindowEnd (station : Nat)
  | groupFormed
  | macroWake (bank : Nat)
  | primitiveFrame (notReady : BitVec 32)
  | acceptServiceStart (ecc : StackRead) (row : Nat) (ue hitUe : List (Nat × WordAt))
  | fragmentComplete (f : FragRead)
  | trgWinWrite (p : Path) (v : Word)
  | trvStart (p : Path) (v : Word)
  | trvStop (p : Path) (v : Word)
  | traverseStep
  | traverseTimeout
  | selfAccept
  | loadAmp
  | addAmp
  | count
  | alert
  | stop
  | contourTest (mask : Nat)
  | contourViolation (mask : Nat)
  | blockWrite (ue : List WordAt)
  | indexEntryWrite (period station : Nat)
  | recall (ring : Nat)
  | recallUnit (ecc : StackRead) (row : Nat)
  | futureTimeout (rid : Nat)
  | pinCopy (ecc : StackRead) (row : Nat)
  | unpin (ring : Nat)
  | scrubRead (bytes row : Nat) (ecc : EccResult)
  | scrubPassEnd
  | taps (body : List Byte)
  | ready (body : List Byte)
  | restart (body : List Byte)
  | laneSwitch (lane : Nat)
  | laneJoin (lane : Nat)
  | trainTimeout (lane : Nat)
  | backoffEnd (lane : Nat)
  | brixTrainingSequence (port : Port) (syms : List (BitVec 10))
  | laneDown (body : List Byte)
  | uplinkFault (lane : Nat)
  | ulEnWrite (p : Path) (v : Word)
  | dlTap (dl : Downlink) (eye : Nat) (req : Byte)
  | packetFlush (cls : Nat)
  | packetStart (lane : Nat) (ue : Option (Nat × Byte × WordAt))
  | packetSent (lane : Nat)
  | splAck (body : List Byte)
  | splNak (body : List Byte)
  | ackTimeout (cls seq : Nat)
  | splCreditWrite (p : Path) (cls : Nat) (v : Word)
  | splShareWrite (p : Path) (cls : Nat) (v : Word)
  | controlMessageDrop (raw : List (Option Byte))
  | doorbell (body : List Byte)
  | readData (body : List Byte)
  | readTimeout (rtag : Nat)
  | regAccessRead (body : List Byte)
  | regAccessWrite (body : List Byte)
  | descriptorFetch
  | descriptorReserved (ring : Nat)
  | nop (ring : Nat)
  | abort (ring : Nat)
  | tieRead (ring : Nat)
  | completionRelease
  | ringCfgWrite (p : Path) (ring : Nat) (v : Word)
  | brixFrame (port : Port) (f : LineFrame)
  | ringRoute (body : List Byte)
  | hopReport (port : Port) (body : List Byte)
  | hubStatus (port : Port) (body : List Byte)
  | ringMap (port : Port) (body : List Byte)
  | bypassOpen
  | leave (p : Path) (v : Word)
  | mirror (body : List Byte)
  | closureSend
  | closure (body : List Byte)
  | closureMissing
  | roleTakeover
  | split
  | ringTable (ring : Nat)
  | ringAdmit (ring : Nat)
  | ringRelease (ring : Nat)
  | srvStart (p : Path) (v : Word)
  | srvStop (p : Path) (v : Word)
  | selfcal (p : Path) (v : Word)
  | surveyPassPeriod
  | surveyConversionEnd (code : BitVec 24)
  | surveyOutput (code : BitVec 24)
  | excitationFault
  | selfcalStart
  | selfcalEnd
  | resultStale (point ageMs : Nat)
  | srvRead (ring : Nat)
  | srvDump (ring : Nat)
  | memWinPlain (p : Path) (w : Nat) (v : Word)
  | memWinSet (p : Path) (w : Nat) (v : Word)
  | memWinClr (p : Path) (w : Nat) (v : Word)
  | patrolRead (bank addr column : Nat) (ecc : EccResult)
  | patrolPassEnd
  | marchLine (pass : Bool)
  | memMarch (ring : Nat)
  | memLogRead (ring : Nat)
  | memRepair (ring : Nat)
  | doseRead (dose fluence : Nat)
  | ceClr (p : Path) (v : Word)
  | confClr (p : Path) (v : Word)
  | lockstepMismatch (d : Disagreement)
  | engineResume (e : EngineStart) (newestOk olderOk : Bool)
  | fwOpen (ring : Nat)
  | fwChunk (ring : Nat)
  | fwClose (c : CloseRead)
  | fwDrop (ring : Nat)
  | sessionAbandon (slot : Nat)
  | fwCopyDone (read : StoreRead)
  | fwFallback
  | fwCommit (ring : Nat)
  | certRead (ring : Nat)
  | attest (ring : Nat)
  | spiRead (cmd : Byte) (addr : BitVec 24) (bits : Nat)
  | spiWrite (cmd : Byte) (addr : BitVec 24) (words : List Word) (tailBits : Nat)
  | topLockWrite (p : Path) (v : Word)
  | topUnlock (p : Path) (v : Word)
  | registerWrite (p : Path) (addr : Nat) (v : Word)
  | signalDetect (lane : RxLane)
  | surveySettlingEnd (fault : Bool) (openOver : Bool)
  | boundaryScanInstruction (ins : ScanInstr) (resetNLow trstNLow : Bool)
  deriving DecidableEq, Repr

end Sys2Proof
end

