-- ==== Sys2Proof/Decode.lean ====
section
/-!
DEFINITION. Words to commands. No row of spec/opcode_table.json has bits: the hub's commands are events and accesses,
and no word spells one (notes/assumptions/1.md).
-/

namespace Sys2Proof

/-- The command that a word spells by the table's bits: none, since the table gives no row any bits. -/
def decodeTableWord (_nbits _w : Nat) : Option Instr := none

end Sys2Proof
end

