-- ==== Sys2Proof/Machine/Tab.lean ====
section
/-!
DEFINITION. The operations over sparse tables, and the bit-field and byte helpers every meaning uses.
-/

namespace Sys2Proof.Machine

open Sys2Proof

/-- What key `k` of a table reads as; `d` is what an unlisted key reads as. -/
def tabGet {α : Type} (d : α) : Tab α → Nat → α
  | [], _ => d
  | (i, v) :: t, k => if i = k then v else tabGet d t k

/-- The table without key `k`. -/
def tabDel {α : Type} : Tab α → Nat → Tab α
  | [], _ => []
  | (i, v) :: t, k => if i = k then tabDel t k else (i, v) :: tabDel t k

/-- The table with key `k` listed as `v`, in place. -/
def tabIns {α : Type} : Tab α → Nat → α → Tab α
  | [], k, v => [(k, v)]
  | (i, w) :: t, k, v =>
    if i = k then (k, v) :: t
    else if k < i then (k, v) :: (i, w) :: t
    else (i, w) :: tabIns t k v

/-- The table with key `k` reading as `v`: an entry equal to the default is not listed. -/
def tabSet {α : Type} [DecidableEq α] (d : α) (t : Tab α) (k : Nat) (v : α) : Tab α :=
  if v = d then tabDel t k else tabIns t k v

/-- Strictly rising keys from `lo` on, and no entry equal to what its key reads as unlisted. -/
def tabWfFrom {α : Type} [DecidableEq α] (d : Nat → α) : Nat → Tab α → Bool
  | _, [] => true
  | lo, (i, v) :: t => decide (lo ≤ i) && decide (v ≠ d i) && tabWfFrom d (i + 1) t

/-- The canonical form of a table; `d k` is what an unlisted key `k` reads as. -/
def tabWf {α : Type} [DecidableEq α] (d : Nat → α) (t : Tab α) : Bool := tabWfFrom d 0 t

/-- Bits [h:l] of a word. -/
def bits (w : Word) (h l : Nat) : Nat := (w.toNat >>> l) % 2 ^ (h + 1 - l)

/-- Bit `b` of a word. -/
def bit (w : Word) (b : Nat) : Bool := w.getLsbD b

/-- The word with `n` at bit `l` and above, 0 elsewhere. -/
def place (n l : Nat) : Word := BitVec.ofNat 32 (n <<< l)

/-- One bit as a word. -/
def bitAt (b : Nat) (v : Bool) : Word := if v then place 1 b else 0

/-- `w` with bits [h:l] replaced by `n`. -/
def putBits (w : Word) (h l n : Nat) : Word :=
  let m := place (2 ^ (h + 1 - l) - 1) l
  (w &&& ~~~m) ||| (place n l &&& m)

/-- `n` bits of `x` read as two's complement. -/
def sext (n x : Nat) : Int :=
  let y := x % 2 ^ n
  if y < 2 ^ (n - 1) then (y : Int) else (y : Int) - 2 ^ n

/-- `x` in two's complement on `n` bits. -/
def toTwos (n : Nat) (x : Int) : Nat := (x % (2 ^ n : Int)).toNat

/-- `a` limited to `lo` to `hi`. -/
def clampI (lo hi a : Int) : Int := if a < lo then lo else if hi < a then hi else a

/-- A count one higher that stops at `m`. -/
def satInc (m n : Nat) : Nat := if n < m then n + 1 else m

/-- `n` bytes of a number, little-endian (00 R9). -/
def leBytes : Nat → Nat → List Byte
  | 0, _ => []
  | n + 1, v => BitVec.ofNat 8 v :: leBytes n (v / 256)

/-- A little-endian number. -/
def leNat : List Byte → Nat
  | [] => 0
  | b :: t => b.toNat + 256 * leNat t

/-- Bytes [a, a + n) of a message; bytes beyond its end are left out. -/
def bytesAt (l : List Byte) (a n : Nat) : List Byte := (l.drop a).take n

/-- The little-endian number at offset `a`, of `n` bytes. -/
def le (l : List Byte) (a n : Nat) : Nat := leNat (bytesAt l a n)

/-- Byte `a` of a message, 0 beyond its end. -/
def byteAt (l : List Byte) (a : Nat) : Nat := ((l.drop a).head?.getD 0).toNat

/-- Whether every byte is 0. -/
def allZero (l : List Byte) : Bool := l.all (· == 0)

/-- ceil(a / b). -/
def ceilDiv (a b : Nat) : Nat := (a + b - 1) / b

/-- A list with entry `i` replaced. -/
def listSet {α : Type} : List α → Nat → α → List α
  | [], _, _ => []
  | _ :: t, 0, v => v :: t
  | h :: t, n + 1, v => h :: listSet t n v

/-- Whether a list holds a number. -/
def memNat (l : List Nat) (n : Nat) : Bool := l.any (· == n)

/-- A sorted list with `n` put in, once. -/
def insNat : List Nat → Nat → List Nat
  | [], n => [n]
  | h :: t, n => if n = h then h :: t else if n < h then n :: h :: t else h :: insNat t n

/-- The list without `n`. -/
def delNat (l : List Nat) (n : Nat) : List Nat := l.filter (· != n)

/-- Numbers a, a+1, …, a+n-1. -/
def upto (a : Nat) : Nat → List Nat
  | 0 => []
  | n + 1 => a :: upto (a + 1) n

end Sys2Proof.Machine
end

