-- ==== Sys2Proof/Machine/Crc.lean ====
section
/-!
DEFINITION. The check codes of the frames, messages, packets and blocks, and the digest of images and records.
-/

namespace Sys2Proof.Machine

open Sys2Proof

/-- Bits of a byte, bit 7 first. -/
def byteBits (b : Byte) : List Bool := (upto 0 8).map fun i => b.getLsbD (7 - i)

/-- FCHK: CRC-4, x⁴ + x + 1, initial value 0, over FC (bit 7 first) and FSEQ (bit 3 first) (09 R267). -/
def crc4 (bs : List Bool) : Nat :=
  (bs.foldl (fun (r : BitVec 4) b =>
    let top := r.getLsbD 3 != b
    if top then (r <<< 1) ^^^ 3#4 else r <<< 1) 0#4).toNat

/-- FCHK of an FC byte and a sequence number. -/
def fchk (fc : Byte) (fseq : Nat) : Nat :=
  crc4 (byteBits fc ++ (upto 0 4).map fun i => Nat.testBit fseq (3 - i))

/-- One byte of CRC-8, polynomial 0x07, not reflected. -/
def crc8Byte (r : Byte) (b : Byte) : Byte :=
  (upto 0 8).foldl (fun (r : Byte) _ =>
    if r.getLsbD 7 then (r <<< 1) ^^^ 0x07#8 else r <<< 1) (r ^^^ b)

/-- CRC-8 of HCHK (11 Table 11.1). -/
def crc8 (l : List Byte) : Byte := l.foldl crc8Byte 0

/-- One byte of CRC-16, polynomial 0x1021, not reflected. -/
def crc16Byte (r : BitVec 16) (b : Byte) : BitVec 16 :=
  (upto 0 8).foldl (fun (r : BitVec 16) _ =>
    if r.getLsbD 15 then (r <<< 1) ^^^ 0x1021#16 else r <<< 1)
    (r ^^^ (b.zeroExtend 16 <<< 8))

/-- CRC-16: initial value 0xFFFF, no final XOR (02 Table 2.4, 09 Table 9.7, 11 Table 11.1). -/
def crc16 (l : List Byte) : BitVec 16 := l.foldl crc16Byte 0xFFFF

/-- One byte of CRC-32C, reflected polynomial 0x82F63B78. -/
def crc32cByte (r : Word) (b : Byte) : Word :=
  (upto 0 8).foldl (fun (r : Word) _ =>
    if r.getLsbD 0 then (r >>> 1) ^^^ 0x82F63B78#32 else r >>> 1)
    (r ^^^ b.zeroExtend 32)

/-- CRC-32C: polynomial 0x1EDC6F41, reflected, initial value and final XOR all ones (08 R257). -/
def crc32c (l : List Byte) : Word := ~~~(l.foldl crc32cByte 0xFFFFFFFF)

/-! ### SHA-256 (15 R424, R438, R439; the manual names it and FIPS 180-4 defines it, notes/assumptions/30.md) -/

/-- The round constants 0 to 31. -/
def shaK0 : List Word :=
  [ 0x428A2F98, 0x71374491, 0xB5C0FBCF, 0xE9B5DBA5, 0x3956C25B, 0x59F111F1, 0x923F82A4, 0xAB1C5ED5,
    0xD807AA98, 0x12835B01, 0x243185BE, 0x550C7DC3, 0x72BE5D74, 0x80DEB1FE, 0x9BDC06A7, 0xC19BF174,
    0xE49B69C1, 0xEFBE4786, 0x0FC19DC6, 0x240CA1CC, 0x2DE92C6F, 0x4A7484AA, 0x5CB0A9DC, 0x76F988DA,
    0x983E5152, 0xA831C66D, 0xB00327C8, 0xBF597FC7, 0xC6E00BF3, 0xD5A79147, 0x06CA6351, 0x14292967 ]

/-- The round constants 32 to 63. -/
def shaK1 : List Word :=
  [ 0x27B70A85, 0x2E1B2138, 0x4D2C6DFC, 0x53380D13, 0x650A7354, 0x766A0ABB, 0x81C2C92E, 0x92722C85,
    0xA2BFE8A1, 0xA81A664B, 0xC24B8B70, 0xC76C51A3, 0xD192E819, 0xD6990624, 0xF40E3585, 0x106AA070,
    0x19A4C116, 0x1E376C08, 0x2748774C, 0x34B0BCB5, 0x391C0CB3, 0x4ED8AA4A, 0x5B9CCA4F, 0x682E6FF3,
    0x748F82EE, 0x78A5636F, 0x84C87814, 0x8CC70208, 0x90BEFFFA, 0xA4506CEB, 0xBEF9A3F7, 0xC67178F2 ]

/-- The initial hash value. -/
def shaH0 : List Word :=
  [ 0x6A09E667, 0xBB67AE85, 0x3C6EF372, 0xA54FF53A, 0x510E527F, 0x9B05688C, 0x1F83D9AB, 0x5BE0CD19 ]

/-- Big-endian words of bytes. -/
def beWords : Nat → List Byte → List Word
  | 0, _ => []
  | n + 1, a :: b :: c :: d :: t => (a ++ b ++ c ++ d) :: beWords n t
  | _ + 1, _ => []

/-- Bytes of a big-endian word. -/
def beBytes (w : Word) : List Byte :=
  [w.extractLsb' 24 8, w.extractLsb' 16 8, w.extractLsb' 8 8, w.extractLsb' 0 8]

/-- The message schedule from its last 16 words, newest first: `n` words more. -/
def shaSchedule : Nat → List Word → List Word
  | 0, w => w
  | n + 1, w =>
    let at_ (i : Nat) : Word := (w.drop i).headD 0
    let a := at_ 14
    let b := at_ 1
    let s0 := a.rotateRight 7 ^^^ a.rotateRight 18 ^^^ (a >>> 3)
    let s1 := b.rotateRight 17 ^^^ b.rotateRight 19 ^^^ (b >>> 10)
    shaSchedule n ((at_ 15 + s0 + at_ 6 + s1) :: w)

/-- One round on the working variables a to h. -/
def shaRound (v : List Word) (kw : Word × Word) : List Word :=
  match v with
  | [a, b, c, d, e, f, g, h] =>
    let s1 := e.rotateRight 6 ^^^ e.rotateRight 11 ^^^ e.rotateRight 25
    let ch := (e &&& f) ^^^ (~~~e &&& g)
    let t1 := h + s1 + ch + kw.1 + kw.2
    let s0 := a.rotateRight 2 ^^^ a.rotateRight 13 ^^^ a.rotateRight 22
    let maj := (a &&& b) ^^^ (a &&& c) ^^^ (b &&& c)
    [t1 + s0 + maj, a, b, c, d + t1, e, f, g]
  | _ => v

/-- The hash value after one 64-byte block. -/
def shaBlock (h : List Word) (block : List Byte) : List Word :=
  let w := (shaSchedule 48 (beWords 16 block).reverse).reverse
  let v := ((shaK0 ++ shaK1).zip w).foldl shaRound h
  (h.zip v).map fun p => p.1 + p.2

/-- The blocks of a padded message. -/
def shaBlocks : Nat → List Word → List Byte → List Word
  | 0, h, _ => h
  | n + 1, h, l => shaBlocks n (shaBlock h (l.take 64)) (l.drop 64)

/-- SHA-256 of a message: 32 bytes. -/
def sha256 (l : List Byte) : List Byte :=
  let n := (l.length + 72) / 64
  let pad := l ++ 0x80#8 :: List.replicate (64 * n - l.length - 9) 0 ++ (leBytes 8 (8 * l.length)).reverse
  (shaBlocks n shaH0 pad).flatMap beBytes

end Sys2Proof.Machine
end

