-- ==== Sys2Proof/Machine/TypesData.lean ====
section
/-!
DEFINITION. The state of the data path: front end, slices and Backsight, filter chains, hits, triggers, Traverse and
Contour (03, 04, 05, 06).
-/

namespace Sys2Proof.Machine

open Sys2Proof

/-- A gain of a channel (03 Table 3.1). -/
inductive Gain where
  | g64 | g8 | g1
  deriving DecidableEq, Repr

/-- A sample of a channel as S0 holds it: its number n = 4x + k, its container and the merged value (05 R141, R142). -/
structure Sample where
  n : Nat
  cont : Container
  m : Int
  /-- S0 limited the value. -/
  sat : Bool
  /-- The channel's state in effect at the sample: FE_CH.EN, FE_CH.RANGE_MODE ≠ 00, STALE, FAULT (06 R168, Table 6.2). -/
  en : Bool
  forced : Bool
  stale : Bool
  fault : Bool
  /-- A visit had one of the channel's slices substituted by the spare when the sample was taken (04 R120, R125). -/
  visited : Bool
  deriving DecidableEq, Repr

/-- A suppressed range of output labels, in running count, inclusive (05 R156, R157). -/
structure Settle where
  first : Int
  last : Int
  orbit : Nat
  cross : Nat
  /-- Its marker has been placed in a group, or joined to another. -/
  placed : Bool
  deriving DecidableEq, Repr

/-- An output of the chain as delivered (05 R151); `flags` is laid out as Table 6.2. -/
structure Output where
  x : Nat
  e : Int
  t : Int
  flags : BitVec 11
  en : Bool
  suppressed : Bool
  /-- MAXRANGE of the hit record (06 R169). -/
  maxRange : BitVec 3
  /-- N3 of the filter set in effect at the label (06 R167, R168). -/
  n3 : Nat
  deriving DecidableEq, Repr

/-- A constant of S0 with its measured value and the value that waits for the gap (04 R110, R127). -/
structure Const where
  eff : Int
  meas : Int
  /-- Temperature at which it was measured, 1/16 °C. -/
  theta : Option Int
  /-- I(θ) − I(θ_meas) as last computed (04 R127). -/
  shift : Int
  deriving DecidableEq, Repr

/-- A temperature set (04 R127). -/
structure TempSet where
  theta : Int
  vals : Tab Int
  /-- When it was last written. -/
  written : Nat
  deriving DecidableEq, Repr

/-- A channel (03 R78 to R100; 04 R119 to R131; 05). -/
structure Channel where
  gain : Gain
  /-- Run lengths of look-aheads within the 80 % window (03 R87). -/
  c64 : Nat
  c8 : Nat
  /-- The gain that the next sample is taken at in AUTO mode (03 R86, R87), and whether the last one switched (R89). -/
  nextGain : Gain
  prevSwitch : Bool
  /-- The ×64 look-ahead code of the next sample (04 R122). -/
  la64 : Nat
  /-- Running, so that the next sample is not the first one. -/
  started : Bool
  /-- The most recent samples, newest first. -/
  hist : List Sample
  /-- Crossings x0 of the last preloads, newest first (05 R155). -/
  preloads : List Nat
  /-- e(n) of the sample before the newest (05 R160). -/
  env : Nat
  /-- The last sample before the newest with RANGE ≠ 11, and e there. -/
  goodEnv : Option (Nat × Nat)
  settles : List Settle
  outs : List Output
  /-- Labels of recent hits (06 R167). -/
  hitLabels : List Nat
  ped64 : Const
  ped8 : Const
  ped1 : Const
  ratio8 : Const
  ratio1 : Const
  /-- FE_CH.EN in effect from a running count on, newest first, at most 4096 changes (06 R185). -/
  enLog : List (Nat × Bool)
  /-- When the staged FE_CH value was written, by the hub's own count (03 R82). -/
  feAt : Option Nat
  /-- Pedestal accumulation (04 R120): even sum and count, odd sum and count, the orbit in which it began. -/
  evenSum : Nat
  evenCnt : Nat
  oddSum : Nat
  oddCnt : Nat
  pedFrom : Nat
  /-- Consecutive shadow intervals with a ratio jump (04 R124), for RATIO_8 and RATIO_1. -/
  jump8 : Nat
  jump1 : Nat
  /-- Interleave skew accumulation (04 R125); Σ(res·m) in half codes. -/
  skRes : Int
  skSq : Int
  skCnt : Nat
  sets : List TempSet
  /-- The orbit of each slice's last completed visit (04 R131); `none` before the first. -/
  visitEven : Option Nat
  visitOdd : Option Nat
  /-- Calibration age and STALE of CAL_W_AGE, as they were formed at the last gap crossing (04 R139). -/
  shownAge : Nat × Bool
  /-- CAL is marked from and through these running counts after a change of connection (03 R97). -/
  calFrom : Nat
  calThrough : Nat
  /-- DC test (03 R98 to R100). -/
  sumOn : Int
  sumOff : Int
  dcClip : Bool
  /-- Running counts of the latest applications of a trim of its slices, newest first (03 Table 3.7). -/
  trims : List Nat
  result : Nat
  rMeas : Nat
  faultRun : Nat
  clearRun : Nat
  fault : Bool
  /-- Detector window in progress (05 R159, R160): maximum, minimum, sum of squares, count, flags [3] CAL, [2] SAT,
  [1] SETTLE, [0] HALF. -/
  detMax : Option Int
  detMin : Option Int
  detSq : Nat
  detCnt : Nat
  detFlags : BitVec 4
  /-- Results posted at the last window end. -/
  postMax : Int
  postMin : Int
  postRms : Nat
  postEnv : Nat
  postFlags : BitVec 4
  deriving DecidableEq, Repr

/-- A converter slice, numbered hub-wide (00 R15; 04 R109, R132). -/
structure Slice where
  offs : Int
  gain : Int
  skew : Int
  measOffs : Int
  measGain : Int
  measSkew : Int
  theta : Option Int
  /-- I(θ) − I(θ_meas) of OFFS, GAIN and SKEW as last computed (04 R127). -/
  shift : Int × Int × Int
  faulty : Bool
  /-- Conversions made, and the conversions of the latest self-check errors, newest first. -/
  convs : Nat
  selfErrs : List Nat
  /-- HARD_PERSIST self-check errors have fallen within 1024 consecutive conversions (04 R132). -/
  hardErr : Bool
  /-- Datum of the first self-check error (04 R136). -/
  firstErr : Option (Nat × Nat)
  /-- Consecutive equalisation steps, and GAIN updates, that rested at an end of the range (04 R132). -/
  limitRun : Nat
  gainRun : Nat
  /-- Running count from which no converter takes its samples (04 R135). -/
  lostFrom : Option Nat
  /-- OFFS, GAIN and SKEW that the CAL_W_ window shows: those applied at the last gap crossing (04 R139). -/
  shown : Int × Int × Int
  deriving DecidableEq, Repr

/-- A step of the Backsight cycle (04 R113). -/
inductive CalStep where
  | visit (slice : Nat)
  | shadow (pos : Nat)
  | selfCal
  deriving DecidableEq, Repr

/-- A step that is to begin: whether its entry comparison has failed once, and the visit that an inserted self-calibration
goes ahead of (04 R116). -/
structure CalNext where
  step : CalStep
  entryRetried : Bool
  repeat_ : Option Nat
  deriving DecidableEq, Repr

/-- Where a step stands (04 R114). -/
inductive CalPhase where
  | lead | offline | exitWait | shadowing | selfCalibrating
  deriving DecidableEq, Repr

/-- Statistics of a parallel run (04 R115). -/
structure ParRun where
  sumD : Int
  maxD : Nat
  cnt : Nat
  deriving DecidableEq, Repr

/-- Sums of a shadow interval (04 R123). -/
structure ShadowSums where
  p8 : Nat
  n8 : Nat
  p1 : Nat
  n1 : Nat
  xy8 : Int
  xx8 : Int
  k8 : Nat
  xy1 : Int
  xx1 : Int
  k1 : Nat
  deriving DecidableEq, Repr

/-- A Backsight step in progress. -/
structure CalJob where
  step : CalStep
  phase : CalPhase
  /-- Running count at which the offline phase or the spare's measurement ends. -/
  ends : Nat
  /-- Gap crossings still to come until the phase ends. -/
  left : Nat
  /-- Running count of the hand-over (04 R136). -/
  handedX : Nat
  /-- V of 04 R114. -/
  v : Nat
  /-- The entry comparison, and the exit comparison, have failed once (04 R116). -/
  entryRetried : Bool
  exitRetried : Bool
  par : ParRun
  shadow : ShadowSums
  /-- The offline phase or the spare's measurement has ended. -/
  offlineDone : Bool
  /-- Trims of the visited slice before the visit: GAIN as measured, and OFFS, GAIN, SKEW as loaded (04 R133). -/
  gainBefore : Int
  loaded : Int × Int × Int
  /-- The visit that this inserted self-calibration goes ahead of (04 R116). -/
  repeat_ : Option Nat
  /-- E4 restarted: the step's computations are discarded and the step is repeated (04 R130). -/
  discard : Bool
  deriving DecidableEq, Repr

/-- A station (04, 05, 06). -/
structure Station where
  /-- 0 idle, 1 cycle, 2 calibration run, 3 stopped. -/
  st : Nat
  /-- Index of the cycle step that is next. -/
  idx : Nat
  job : Option CalJob
  runReq : Bool
  /-- Run steps left to do. -/
  runLeft : List CalNext
  /-- A step of the cycle that has to be repeated, or the step that R116 puts ahead of the cycle's next one. -/
  owed : Option CalNext
  /-- SPARE_SKEW in effect and as last measured, 0.1 ps, and its I(θ) − I(θ_meas) as last computed (04 R117, R127). -/
  spareSkew : Int
  skMeas : Int
  skShift : Int
  skDm : Int
  skMm : Int
  skCnt : Nat
  spareUsed : Option Nat
  /-- Running count from which the spare delivers for the faulty slice, and the slice it stood in for before (04 R133). -/
  spareFrom : Nat
  spareBefore : Option Nat
  spareFault : Bool
  failed : Nat
  halfCh : Option Nat
  /-- The slice the spare stands in for during a visit. -/
  handed : Option Nat
  /-- The last parallel-run sample of the visited slice: its channel, its number and d_n (04 R117). -/
  parLast : Option (Nat × Nat × Int)
  theta : Int
  thetaMeas : Int
  /-- θ at the last application of interpolated values, and one is due (04 R127). -/
  lastTheta : Int
  interpDue : Bool
  spareSets : List TempSet
  /-- Filter values in effect before the last application, and its crossing x0 (05 R153). -/
  fltOld : Tab Word
  fltAt : Nat
  /-- When the pending application was opened (05 R153). -/
  applyAt : Option Nat
  settleCount : Nat
  settleInfo : Nat × Nat
  settleFirst : Nat × Nat
  /-- Detector windows since the Profile enabling write (06 R196). -/
  profCnt : Nat
  detAt : Option Nat
  deriving DecidableEq, Repr

/-- An injection source (03 R91 to R97). -/
structure InjSource where
  /-- Signed amplitude at the output, 0 when it is zero. -/
  out : Int
  /-- Running count, width and delay of the last firing, and the count since which the output is not zero. -/
  firedAt : Nat
  onFrom : Nat
  width : Nat
  delay : Nat
  /-- Last running count in which the output was not zero. -/
  lastOn : Option Nat
  /-- The crossing of the last firing, with `out`, `onFrom` and `lastOn` as they were before it (03 R96). -/
  was : Option (Nat × Int × Nat × Option Nat)
  deriving DecidableEq, Repr

/-- The DC input test (03 R98). -/
structure DcTest where
  /-- The orbit's test began at crossing N−16. -/
  begun : Bool
  current : Bool
  /-- Tests that a change of Datum cut short and that have not been posted (03 R98). -/
  cuts : Nat
  /-- The results wait for the sample that fills the last one of the off window (05 R143): the channels of which a leg left
  its common-mode range. -/
  held : Option (List Nat)
  /-- Running count of crossing N−16. -/
  startX : Nat
  /-- TEST_SEQ: tests posted (03 Table 3.11). -/
  seq : Nat
  deriving DecidableEq, Repr

/-- A group of the hit ring (06 R170, R177). -/
structure HitGroup where
  gseq : Nat
  orbit : Nat
  cross : Nat
  /-- Running counts of its first and last labels. -/
  firstX : Nat
  lastX : Nat
  /-- Hit and neighbour records. -/
  recs : List (BitVec 64)
  deriving DecidableEq, Repr

/-- A fragment in assembly (06 R187): the channels of its list, the containers of each in time order, its hit records, header
flags and CHSEL, and CMP_CTL and CMP_COPY_DIST for its raw section. -/
structure Fragment where
  chans : List Nat
  data : List (List Nat)
  hits : List (BitVec 64)
  flags : Nat
  chsel : Nat
  cmpCtl : Word
  cmpDist : Word
  deriving DecidableEq, Repr

/-- An accept in the queue (06 R182, R183). -/
structure Accept where
  seq : Nat
  /-- Running count of the accepted crossing; negative when it precedes the first sampled crossing. -/
  a : Int
  orbit : Nat
  cross : Nat
  self : Bool
  pre : Nat
  post : Nat
  mode : Nat
  cmp : Bool
  chsel : Nat
  /-- When service started, and whether it is from the history store. -/
  started : Option Nat
  hist : Bool
  frag : Option Fragment
  deriving DecidableEq, Repr

/-- The state sequencer (06 R189 to R191). -/
structure Traverse where
  run : Bool
  state : Nat
  /-- Crossing at which the current state was entered. -/
  entered : Nat
  counters : List Nat
  alert : Bool
  deriving DecidableEq, Repr

/-- A mask test in progress (06 R193). -/
structure MaskTest where
  /-- The alignment sample. -/
  n0 : Nat
  /-- The first sample not tested: LEN and PRE of the mask as the test began. -/
  first : Int
  len : Nat
  deriving DecidableEq, Repr

/-- A waveform mask (06 R193). -/
structure Mask where
  test : Option MaskTest
  /-- The first sample not yet examined for an alignment. -/
  scan : Nat
  /-- The sample after the one at which a violation ended the last test. -/
  ended : Nat
  deriving DecidableEq, Repr

/-- Contour (06 R192 to R194). -/
structure Contour where
  masks : Tab Mask
  violations : Nat
  busy : Nat
  viol : Nat × Nat
  vinfo : Word
  /-- Crossing of the last violation. -/
  failAt : Option Nat
  deriving DecidableEq, Repr

/-- Totals of the dead-time record and the TRG_DT registers (06 R197, R201). -/
structure DeadTime where
  acc : Nat
  self : Nat
  accGap : Nat
  accHist : Nat
  busyX : Nat
  hitGapX : Nat
  profGapX : Nat
  primLate : Nat
  deriving DecidableEq, Repr

/-- Hits and triggers (06). -/
structure TrigState where
  gseqNext : Nat
  gseqLast : Nat
  /-- Running count and Datum of the first label of the group in progress. -/
  groupX : Nat
  groupOrbit : Nat
  groupCross : Nat
  hitRing : List HitGroup
  /-- Every label from this one on is whole in the hit ring (06 R186). -/
  ringFrom : Nat
  accQueue : List Accept
  accSeqNext : Nat
  accSeqLast : Nat
  accGapCount : Nat
  /-- TRG_WIN as accepts use it, and the values written within the last 8 crossings with the crossing from which each
  applies, in order (06 R185). -/
  win : Word
  winNext : List (Word × Nat)
  /-- Hit settings that wait for their group (06 R168): address, value, crossing of the write. -/
  hitStage : List (Nat × Word × Nat)
  /-- Crossings that a stretched station island could not take: station, first running count, count (01 R34). -/
  sagLost : List (Nat × Nat × Nat)
  trv : Traverse
  ctr : Contour
  dt : DeadTime
  /-- Totals at the previous dead-time record, and the running count of the first crossing that it did not cover. -/
  dtPrev : DeadTime
  dtFrom : Nat
  twLate : Word
  /-- The crossings in which a CALPULSE acted, newest first, at most 64. -/
  calpulses : List Nat
  /-- The group formed in this crossing held a hit of these stations, with the earliest label. -/
  hitNow : List (Nat × Nat)
  /-- The last primitive frame: its label, codes and crossing of departure. -/
  primLast : Option (Nat × List Nat)
  deriving DecidableEq, Repr

end Sys2Proof.Machine
end

