-- ==== Sys2Proof/Machine/TypesStore.lean ====
section
/-!
DEFINITION. The state of the history store and recalls (07, 08), the survey port (13), the memories and their
integrity (14) and the engines, images and identity (15).
-/

namespace Sys2Proof.Machine

open Sys2Proof

/-- An index entry (07 R207 Table 7.2). -/
structure IndexEntry where
  xstart : Nat
  loss : Bool
  error : Bool
  /-- Byte offset at which the block begins, in the order of allocation since start-up: SEG and OFFS follow from it. -/
  lin : Nat
  len : Nat
  deriving DecidableEq, Repr

/-- A block as it stands in the ring region or in pin space (08 R240). -/
structure Block where
  bytes : List Byte
  /-- Byte offset at which it begins, in the order of allocation. -/
  lin : Nat
  loss : Bool
  /-- A copy in pin space that was found in error (07 R209). -/
  error : Bool
  deriving DecidableEq, Repr

/-- A pin (07 R229 to R232). -/
structure Pin where
  handle : Nat
  segs : Nat
  /-- Blocks to copy, oldest first: period and station. -/
  todo : List (Nat × Nat)
  /-- Blocks held. -/
  held : List (Nat × Nat)
  complete : Bool
  /-- The recall that made it, by number. -/
  rid : Nat
  missed : Bool
  deriving DecidableEq, Repr

/-- The section of a recall that is being delivered (07 R219 to R225). -/
structure RecallSect where
  /-- Buffer and offset in it of the section's header. -/
  hdrBuf : Nat
  hdrOff : Nat
  stn : Nat
  pos : Nat
  /-- Running count of its first crossing. -/
  first : Nat
  flags : Nat
  /-- Units still to deliver: bytes, and containers or crossings that they carry. -/
  units : List (List Byte × Nat)
  /-- What the units count: 1 for whole crossings, 4 for containers. -/
  per : Nat
  /-- Carried so far, and data bytes written so far. -/
  count : Nat
  len : Nat
  /-- Data bytes through the last crossing that it carries completely (07 R225). -/
  done : Nat
  deriving DecidableEq, Repr

/-- A recall accepted and not complete (07 R214 to R235). -/
structure Recall where
  rid : Nat
  ring : Nat
  sq : Nat
  tag : Word
  startX : Nat
  count : Nat
  /-- 0 RAW, 1 CODED, 2 BLOCK, 3 INDEX. -/
  form : Nat
  noOut : Bool
  /-- Selected channels, ascending. -/
  chans : List Nat
  /-- Crossing of the hub's own count at which the wait for future blocks ends (07 R228). -/
  waitEnd : Nat
  bufs : List (Nat × Nat)
  pin : Option Nat
  /-- The next section: block period, station, position, first crossing. -/
  period : Nat
  stn : Nat
  pos : Nat
  x : Nat
  /-- No section is left. -/
  outDone : Bool
  /-- Buffer in use, bytes used in it (0 before its header has its place), and the bytes not yet written to host memory
  with the offset at which they begin. -/
  buf : Nat
  used : Nat
  part : List Byte
  partAt : Nat
  sect : Option RecallSect
  absent : Bool
  error : Bool
  loss : Bool
  fromPin : Bool
  /-- A block it read was good, or in error. -/
  anyGood : Bool
  anyError : Bool
  aborted : Bool
  resumed : Bool
  /-- It stops, like an aborted one, because its state was lost (14 Table 14.4). -/
  lost : Bool
  /-- Its pin was released while it was in service: it reads the ring region only (07 R232). -/
  ringOnly : Bool
  /-- SEQ of the packet that its output ends, once it has ended (07 R221, R222). -/
  lastSeq : Option Nat
  deriving DecidableEq, Repr

/-- The history store (07). -/
structure HistState where
  index : Tab (Option IndexEntry)
  /-- Blocks in the ring region, keyed by 32 × period + station. -/
  blocks : Tab (Option Block)
  /-- Bytes of the ring region allocated since start-up, in 64-byte-aligned placement order. -/
  allocTotal : Nat
  /-- Block periods written so far. -/
  periods : Nat
  /-- Total bytes of each of the last 1024 periods, newest first. -/
  sizes : List Nat
  /-- Entries that wait for E1 to write them (07 R207): period, station. -/
  toIndex : List (Nat × Nat)
  /-- Crossings lost under a sag: station, first running count, count (01 R34). -/
  lost : List (Nat × Nat × Nat)
  pins : List Pin
  pinBlocks : Tab (Option Block)
  recalls : List Recall
  nextRid : Nat
  /-- The recall served last (07 R234). -/
  lastRid : Option Nat
  errCount : Nat
  evictCount : Nat
  /-- Scrub: bytes of the pass read, passes completed, in debt (07 R237). -/
  scrubBytes : Nat
  scrubPasses : Nat
  scrubDebt : Bool
  /-- Crossing from which a scrub in debt claims its slots again (07 R236). -/
  scrubNext : Nat
  /-- Scrub passes begun, and when the present one began, by the hub's own count. -/
  scrubNo : Nat
  scrubStart : Nat
  /-- CMP_CTL and CMP_COPY_DIST as written, newest first, each with the hub's own count at its write (08 R258). -/
  cmpSets : List (Nat × Word × Word)
  errX : Nat
  errInfo : Word
  errHeader : Nat
  errIllegal : Nat
  errDistance : Nat
  errLength : Nat
  checkCount : Nat
  storedCount : Nat
  deriving DecidableEq, Repr

/-- What the survey converter is doing (13 R372, R373, R385, R387). -/
inductive SrvJob where
  | idle
  | settling (point : Nat) (read : Bool)
  | converting (point : Nat) (read : Bool)
  | selfCal
  deriving DecidableEq, Repr

/-- A queued SRV_READ (13 R387). -/
structure SrvReadOp where
  ring : Nat
  sq : Nat
  tag : Word
  point : Nat
  stream : Bool
  resumed : Bool
  deriving DecidableEq, Repr

/-- A survey point's result (13 R383, R384). -/
structure SrvRes where
  value : Word
  status : Byte
  code : BitVec 24
  /-- Plumb at its posting; none before the first (13 R384, R386). -/
  postedAt : Option Nat
  openRun : Nat
  fault : Bool
  deriving DecidableEq, Repr

/-- The survey port (13). -/
structure SurveyState where
  job : SrvJob
  passRun : Bool
  entry : Nat
  /-- Outputs of the continuous entry still to post; `none` for an entry without end. -/
  left : Option Nat
  settleOuts : Nat
  /-- The point whose outputs follow one another undisturbed (13 R373). -/
  onPoint : Option Nat
  /-- Scan settings in effect for the pass (13 R376): LEN, PERIOD, MODE and the scan table; Plumb at the pass's start. -/
  len : Nat
  period : Nat
  startAt : Nat
  mode : Nat
  table : List Word
  stopReq : Bool
  /-- Passes follow one another until a STOP; a start waits for the end of the pass or the conversion. -/
  scanOn : Bool
  passDue : Bool
  /-- The periodic start after the latest start has fallen due, and waits (13 R375). -/
  periodDue : Bool
  reads : List SrvReadOp
  selfReq : Bool
  /-- SRV_TEMP, and Plumb, at the last self-calibration. -/
  selfTemp : Int
  selfAt : Nat
  results : Tab SrvRes
  sseqNext : Nat
  sseqLast : Nat
  drop : Nat
  temp : BitVec 16
  /-- The settings of the point under conversion, as taken when it began (13 R376). -/
  ptA : Word
  ptB : Word
  ptPar : List Word
  deriving DecidableEq, Repr

/-- Error counts and repair state of a bank (14 R402 to R406, R419). -/
structure Bank where
  ce : Nat
  ue : Nat
  /-- Spares taken in service, and those taken at start-up. -/
  used : Nat
  loaded : Nat
  /-- Columns with corrected errors in this pass: column, distinct words. -/
  cols : List (Nat × List Nat)
  /-- Column repairs under way: column, passes begun since it was selected. -/
  repairs : List (Nat × Nat)
  /-- Lines retired and columns replaced. -/
  lines : List Nat
  columns : List Nat
  deriving DecidableEq, Repr

/-- A march in progress (14 R403, R405). -/
structure March where
  bank : Nat
  alg : Nat
  next : Nat
  left : Nat
  tested : Nat
  failing : Nat
  retired : Nat
  /-- The descriptor that asked for it: ring, SQ index, tag. -/
  op : Option (Nat × Nat × Word)
  aborted : Bool
  deriving DecidableEq, Repr

/-- An operation of 14 or 15 that is accepted and not complete. -/
structure RepairOp where
  kind : Nat
  ring : Nat
  sq : Nat
  tag : Word
  bank : Nat
  target : Nat
  deriving DecidableEq, Repr

/-- An engine (14 R416 to R418; 15). -/
structure Engine where
  running : Bool
  restarting : Bool
  restarts : Nat
  /-- When it last restarted, newest first, at most 2. -/
  recent : List Nat
  region : Nat
  /-- Which checkpoint slot is the newer, and which slots are valid. -/
  ckptNew : Nat
  ckpt0 : Bool
  ckpt1 : Bool
  /-- The same three as the previous image left them with its hand-over checkpoint (15 Table 15.5, R433). -/
  handOver : Nat × Bool × Bool
  /-- The target, in the hub's own count of crossings, of the switch in which the engine has not resumed service
  (15 Table 15.5). -/
  switchedAt : Option Nat
  deriving DecidableEq, Repr

/-- On-chip memory and integrity (14). -/
structure MemState where
  /-- The user area, by byte offset. -/
  user : Tab Byte
  banks : Tab Bank
  march : Option March
  marchQueue : List March
  repairs : List RepairOp
  /-- Macros in retention, in wake, and woken with their bit set, by their bit of MEM_SLEEP (14 R397, R398). -/
  asleep : List Nat
  waking : List Nat
  woken : List Nat
  /-- DRAM rows with corrected errors: row, scrub pass when a scrub read found it, and the hub's own count of crossings in which
  it was seen. -/
  weakRows : List (Nat × Option Nat × Nat)
  redirect : Option Nat
  /-- Weak rows that wait for their repair, one row being repaired at a time (14 R410). -/
  rowQueue : List Nat
  softRepairs : Nat
  hardRepairs : Nat
  pendingHard : Nat
  /-- Spare rows left, by bank group. -/
  spareRows : List Nat
  dramCe : Nat
  dramUe : Nat
  log : List (List Byte × Bool)
  lseq : Nat
  logLost : Nat
  /-- When the present patrol pass began, in the hub's own count of crossings (14 R402). -/
  patrolAt : Nat
  dose : Nat
  fluence : Nat
  /-- When E6 last read the monitors (14 R415). -/
  doseAt : Option Nat
  doseWarned : Bool
  fluWarned : Bool
  tmrCnt : Nat
  nvmCe : Nat
  nvmUe : Nat
  conf : Tab Word
  deriving DecidableEq, Repr

/-- States of an image slot (15 R423). -/
inductive SlotState where
  | empty | open_ | valid | bad
  deriving DecidableEq, Repr

/-- An image slot (15 R422 to R429). -/
structure Slot where
  st : SlotState
  header : List Byte
  payload : Tab Byte
  /-- Offsets of the chunks written. -/
  chunks : List Nat
  /-- When the session was opened or last accepted a chunk, by the hub's own count. -/
  since : Nat
  deriving DecidableEq, Repr

/-- A chunk that an FW_CHUNK is reading (15 R427). -/
structure ChunkOp where
  oid : Nat
  ring : Nat
  sq : Nat
  tag : Word
  slot : Nat
  offset : Nat
  addr : Nat
  len : Nat
  resumed : Bool
  /-- What its read gave while E6 was in a restart, none for a failed read: it is written whole after it (15 Table 15.1). -/
  arrived : Option (Option (List Byte))
  /-- Its read waits for one of the 64 that may be outstanding (11 R315). -/
  toRead : Bool
  deriving DecidableEq, Repr

/-- A pending FW_ACTIVATE (15 R430, R431). -/
structure Activation where
  sid : Nat
  slot : Nat
  copied : Bool
  deriving DecidableEq, Repr

/-- The temperature sets of a channel or of a spare as saved, with the V_meas values by number and their θ_meas
(04 R128). -/
structure CalSave where
  sets : List TempSet
  meas : List (Nat × Int × Option Int)
  deriving DecidableEq, Repr

/-- The settings area (15 R422). -/
structure Settings where
  bootSlot : Nat
  minSec : Nat
  hubId : Option Nat
  /-- Temperature sets as last saved, by channel, and by 512 + station for the spares. -/
  sets : Tab CalSave
  /-- Recorded repairs: SRAM columns by bank, and DRAM rows. -/
  columns : List (Nat × Nat)
  rows : List Nat
  deriving DecidableEq, Repr

/-- Engines, images and identity (15). -/
structure FwState where
  engines : Tab Engine
  slots : Tab Slot
  settings : Settings
  /-- Revocation bits in the identity area (15 Table 15.2). -/
  idRevoked : BitVec 4
  runSlot : Nat
  prevSlot : Nat
  runVer : Nat
  runSec : Nat
  runDigest : List Byte
  runRevoke : BitVec 4
  /-- VERSION, SEC_VERSION, DIGEST and REVOKE of the previous image, which the other code regions hold (15 R433). -/
  prevVer : Nat
  prevSec : Nat
  prevDigest : List Byte
  prevRevoke : BitVec 4
  minSec : Nat
  revoked : BitVec 4
  bootSlot : Nat
  probation : Bool
  /-- A fallback has occurred since the last switch (15 R434). -/
  fellBack : Bool
  /-- Start-up used the golden slot, and no FW_COMMIT has come since (15 R435). -/
  bootFellBack : Bool
  fallbackSinceReset : Bool
  act : Option Activation
  chunkOps : List ChunkOp
  /-- The last whole orbit, by which ENG_LOADk gives its busy cycles; none before the first (15 Table 15.7). -/
  loadOrbit : Option Nat
  deriving DecidableEq, Repr

end Sys2Proof.Machine
end

