-- ==== Sys2Proof/Config.lean ====
section
/-!
DEFINITION. What a hub brings from its factory and its configuration store, and the free values: values that the manual
leaves open. None has a body, so no proof can see what it is (notes/assumptions/4.md).
-/

namespace Sys2Proof

/-- A free number: value `n` of the run. -/
opaque Config.freeNat : Nat → Nat

/-- A free word: value `n` of the run. -/
opaque Config.freeWord : Nat → Word

/-- Plumb counts that pass in crossing `n` of the hub's clock: 1 GHz against fRC (02 R45, 16 R447). -/
opaque Config.plumbStep : Nat → Nat

/-- U of R45: the smallest U for which 2ᵁ ps bounds the error of a stamp taken in crossing `n` (02 R45, R64). -/
opaque Config.boundU : Nat → Nat

/-- What Meridian's picoseconds become when a stake loads 10¹² or more (02 Table 2.7). -/
opaque Config.badPicos : Nat → Nat

/-- The word of a register marked "Factory" (17 R465), by address. -/
opaque Config.factory : Nat → Word

/-- Whether a RESET_N pulse of `n` ns, 400 to 499, resets the hub: the board must not apply one (16 R452). -/
opaque Config.pinResetShort : Nat → Bool

/-- The header of the factory image in the golden slot, and its payload (15 R422, R424). -/
opaque Config.goldenHeader : List Byte

opaque Config.goldenPayload : Tab Byte

/-- Busy cycles per 65,536 of an engine over an orbit, by its number in the run (15 Table 15.7). -/
opaque Config.engineBusy : Nat → Nat → Nat

/-- Whether a column number exists in a large macro (14 R412). -/
opaque Config.columnExists : Nat → Bool

/-- Whether a stack row address exists, and its bank group (14 R410, R412). -/
opaque Config.rowExists : Nat → Bool
opaque Config.rowGroup : Nat → Nat

/-- Signing keys present in the identity area (15 Table 15.7). -/
opaque Config.keysPresent : Nat

/-- Whether a signature verifies under signing key `k` (15 R425). -/
opaque Config.sigOk : Nat → List Byte → List Byte → Bool

/-- The device key's signature of a message (15 R436, R438). -/
opaque Config.deviceSig : List Byte → Nat

/-- The bytes of a settings-area copy, whose layout the manual does not give (15 R438, Table 15.6). -/
opaque Config.settingsImage : Machine.Settings → List Byte

/-- The device certificate and the authority certificate (15 R436). -/
opaque Config.deviceCert : List Byte
opaque Config.authorityCert : List Byte

/-- The ECC syndrome of an error, and the position of the bit that was corrected, by the LSEQ of its log entry and the hub's own
count of crossings (14 R413). -/
opaque Config.syndrome : Nat → Nat → Nat
opaque Config.errorBit : Nat → Nat → Nat

/-- Columns fused by the factory, by bank (14 Table 14.10 FUSED). -/
opaque Config.fused : Nat → Nat

end Sys2Proof
end

