-- ==== Sys2Proof/Machine/Code.lean ====
section
/-!
DEFINITION. The 8b/10b line code (09 R264, R265), as the standard gives it (notes/assumptions/86.md): characters to
symbols and back with the running disparity, and the frames that received symbols hold.
A symbol is written with its bit a, the first sent, most significant. A disparity is true when it is positive.
-/

namespace Sys2Proof.Machine

open Sys2Proof

/-! ### Characters (09 Table 9.2) -/

abbrev k28_0 : LChar := .k 0x1C
abbrev k28_1 : LChar := .k 0x3C
abbrev k28_2 : LChar := .k 0x5C
abbrev k28_5 : LChar := .k 0xBC
abbrev k23_7 : LChar := .k 0xF7
abbrev k27_7 : LChar := .k 0xFB
abbrev k29_7 : LChar := .k 0xFD
abbrev k30_7 : LChar := .k 0xFE

/-- Bytes as data characters. -/
def dataChars (l : List Byte) : List LChar := l.map .d

/-- Bytes between an opening character and K29.7. -/
def framedChars (o : LChar) (l : List Byte) : List LChar := o :: dataChars l ++ [k29_7]

/-! ### Encoding -/

/-- Ones among the low `n` bits. -/
def onesIn (n c : Nat) : Nat := ((upto 0 n).filter fun i => Nat.testBit c i).length

/-- The 6-bit halves of D.0 to D.31 at negative disparity. -/
def table6 : List Nat := [0b100111, 0b011101, 0b101101, 0b110001, 0b110101, 0b101001, 0b011001, 0b111000] ++
  [0b111001, 0b100101, 0b010101, 0b110100, 0b001101, 0b101100, 0b011100, 0b010111] ++
  [0b011011, 0b100011, 0b010011, 0b110010, 0b001011, 0b101010, 0b011010, 0b111010] ++
  [0b110011, 0b100110, 0b010110, 0b110110, 0b001110, 0b101110, 0b011110, 0b101011]

/-- The 6-bit half of a character with low five bits `x`; `k28` for K28.y. -/
def code6 (rd k28 : Bool) (x : Nat) : Nat :=
  let c := if k28 then 0b001111 else table6.getD x 0
  if rd && (onesIn 6 c != 3 || c == 0b111000) then 63 - c else c

/-- The 4-bit halves at negative disparity, of data and of K characters. -/
def table4 : List Nat := [0b1011, 0b1001, 0b0101, 0b1100, 0b1101, 0b1010, 0b0110, 0b1110]
def table4k : List Nat := [0b1011, 0b0110, 0b1010, 0b1100, 0b1101, 0b0101, 0b1001, 0b0111]

/-- The 4-bit half of a character with bits `x` and `y`, at the disparity after its 6-bit half. -/
def code4 (rd isK : Bool) (x y : Nat) : Nat :=
  if isK then (if rd then 15 - table4k.getD y 0 else table4k.getD y 0)
  else
    let alt := y = 7 ∧ memNat (if rd then [11, 13, 14] else [17, 18, 20]) x
    let c := if alt then 0b0111 else table4.getD y 0
    if rd && (onesIn 4 c != 2 || y == 3) then 15 - c else c

/-- The disparity after a half of `n` bits: its surplus of ones decides, and of the halves without a surplus 000111 and 0011
leave it positive, 111000 and 1100 negative (09 R264: the code's standard rules). -/
def rdAfter (n : Nat) (rd : Bool) (c : Nat) : Bool :=
  if n < 2 * onesIn n c then true
  else if 2 * onesIn n c < n then false
  else if c == 2 ^ (n / 2) - 1 then true
  else if c == 2 ^ n - 2 ^ (n / 2) then false
  else rd

/-- The disparity after a symbol: after its 6-bit half and then its 4-bit half. -/
def rdSymbol (rd : Bool) (s : Nat) : Bool := rdAfter 4 (rdAfter 6 rd (s / 16)) (s % 16)

/-- The symbol of a character. -/
def encode8b10b (rd : Bool) (c : LChar) : Nat :=
  let (isK, b) := match c with
    | .d b => (false, b.toNat)
    | .k b => (true, b.toNat)
  let x := b % 32
  let hi := code6 rd (isK && x == 28) x
  hi * 16 + code4 (rdAfter 6 rd hi) isK x (b / 32)

/-- The symbols of characters, from a running disparity. -/
def encodeChars : Bool → List LChar → List (BitVec 10)
  | _, [] => []
  | rd, c :: t =>
    let s := encode8b10b rd c
    BitVec.ofNat 10 s :: encodeChars (rdSymbol rd s) t

/-- The running disparity after characters. -/
def disparityAfter : Bool → List LChar → Bool
  | rd, [] => rd
  | rd, c :: t => disparityAfter (rdSymbol rd (encode8b10b rd c)) t

/-! ### Decoding -/

/-- The characters whose 6-bit half at disparity `rd` is `hi`. -/
def charsOf6 (rd : Bool) (hi : Nat) : List LChar :=
  ((upto 0 32).filter fun x => code6 rd false x == hi).flatMap (fun x =>
    ((upto 0 8).map fun y => LChar.d (BitVec.ofNat 8 (x + 32 * y))) ++
      (if memNat [23, 27, 29, 30] x then [LChar.k (BitVec.ofNat 8 (x + 224))] else [])) ++
  (if code6 rd true 28 == hi then (upto 0 8).map fun y => LChar.k (BitVec.ofNat 8 (28 + 32 * y)) else [])

/-- The character that a symbol codes at a disparity. -/
def symbolAt (rd : Bool) (s : Nat) : Option LChar := (charsOf6 rd (s / 16)).find? fun c => encode8b10b rd c == s

/-- A received symbol: its character, if it is valid at either disparity, and whether it is without a disparity error. -/
def decodeSymbol (rd : Bool) (s : Nat) : Option LChar × Bool :=
  match symbolAt rd s with
  | some c => (some c, true)
  | none => (symbolAt (!rd) s, false)

/-- A received character: its value, and whether it carries a code error, which a K-character that Table 9.2 does not allow
there is too (09 R264, R265). -/
structure RxChar where
  char : Option LChar
  err : Bool
  deriving DecidableEq, Repr

/-- The received characters of symbols from a running disparity; `allow i` lists the K-characters that position `i` may
hold. -/
def decodeChars (allow : Nat → List LChar) : Nat → Bool → List (BitVec 10) → List RxChar
  | _, _, [] => []
  | i, rd, s :: t =>
    let (c, ok) := decodeSymbol rd s.toNat
    let bad := match c with
      | some (.k b) => !(allow i).any (· == .k b)
      | some (.d _) => false
      | none => true
    ⟨c, bad || !ok⟩ :: decodeChars allow (i + 1) (rdSymbol rd s.toNat) t

/-- The running disparity after received symbols. -/
def disparityOf (rd : Bool) (l : List (BitVec 10)) : Bool := l.foldl (fun r s => rdSymbol r s.toNat) rd

/-- `n` symbols; one that did not come is invalid. -/
def symbolsOf (n : Nat) (l : List (BitVec 10)) : List (BitVec 10) := (l ++ List.replicate n 0).take n

/-! ### Received frames -/

/-- Character 0 of a downlink or Brix frame as received: K28.5, K28.1, or not as Table 9.3 gives (09 R266). -/
inductive Comma where
  | k285
  | k281
  | bad
  deriving DecidableEq, Repr

/-- A downlink crossing frame as received (09 R266). -/
structure DlFrame where
  /-- Character 0. -/
  comma : Comma
  /-- Character 1, the fast-command byte. -/
  fc : Byte
  /-- Character 2: [7:4] FSEQ, [3:0] FCHK. -/
  fchk : Byte
  /-- A code error in character 1 or 2. -/
  fcErr : Bool
  /-- Code errors counted in the whole frame (09 R264). -/
  codeErrs : Nat
  /-- Characters 3 to 11; a byte with a code error is `none` (09 R270). -/
  ctl : List (Option Byte)
  /-- Fraction of a crossing of the arrival of the frame's first bit, 2⁻²⁴ crossing (02 R53). -/
  frac : BitVec 24
  deriving DecidableEq, Repr

/-- A character of a Brix frame's slots (12 R341). -/
inductive SlotChar where
  | data (b : Byte)
  | open_
  | close
  | abort
  | bad
  deriving DecidableEq, Repr

/-- A Brix frame as received (12 R339). -/
structure BrixFrame where
  comma : Comma
  fc : Byte
  fchk : Byte
  rhdr : Byte
  /-- A code error in characters 0 to 2. -/
  headErr : Bool
  /-- A code error in character 3. -/
  rhdrErr : Bool
  codeErrs : Nat
  slots : List SlotChar
  /-- Fraction of a crossing of the arrival of the first bit (02 R53). -/
  frac : BitVec 24
  deriving DecidableEq, Repr

/-- Character 0 as a comma. -/
def RxChar.comma (c : RxChar) : Comma :=
  if c.char = some k28_1 then .k281 else if c.char = some k28_5 then .k285 else .bad

/-- The byte of a data character without a code error. -/
def RxChar.byte (c : RxChar) : Option Byte :=
  match c.char, c.err with
  | some (.d b), false => some b
  | _, _ => none

/-- Character `i` of a frame. -/
def charAt (l : List RxChar) (i : Nat) : RxChar := l.getD i ⟨none, true⟩

/-- K-characters of a downlink frame: K28.5 and K28.1 in its first place (09 Table 9.2). -/
def dlAllow (i : Nat) : List LChar := if i = 0 then [k28_5, k28_1] else []

/-- The downlink frame that twelve symbols hold. -/
def dlDecode (rd : Bool) (syms : List (BitVec 10)) (frac : BitVec 24) : DlFrame :=
  let l := decodeChars dlAllow 0 rd (symbolsOf 12 syms)
  { comma := (charAt l 0).comma
    fc := (charAt l 1).byte.getD 0, fchk := (charAt l 2).byte.getD 0
    fcErr := (charAt l 1).byte.isNone || (charAt l 2).byte.isNone
    codeErrs := (l.filter RxChar.err).length, ctl := (l.drop 3).map RxChar.byte, frac := frac }

/-- K-characters of a Brix frame: the commas in its first place, and K27.7, K29.7 and K30.7 in the slots (09 Table 9.2;
12 R339, R341). -/
def brixAllow (i : Nat) : List LChar :=
  if i = 0 then [k28_5, k28_1] else if i < 4 then [] else [k27_7, k29_7, k30_7]

/-- A slot character. -/
def RxChar.slot (c : RxChar) : SlotChar :=
  if c.err then .bad
  else match c.char with
    | some (.d b) => .data b
    | some c => if c = k27_7 then .open_ else if c = k29_7 then .close else .abort
    | none => .bad

/-- The Brix frame that ten symbols hold. -/
def brixDecode (rd : Bool) (syms : List (BitVec 10)) (frac : BitVec 24) : BrixFrame :=
  let l := decodeChars brixAllow 0 rd (symbolsOf 10 syms)
  { comma := (charAt l 0).comma
    fc := (charAt l 1).byte.getD 0, fchk := (charAt l 2).byte.getD 0, rhdr := (charAt l 3).byte.getD 0
    headErr := (charAt l 0).err || (charAt l 1).byte.isNone || (charAt l 2).byte.isNone
    rhdrErr := (charAt l 3).byte.isNone
    codeErrs := (l.filter RxChar.err).length, slots := (l.drop 4).map RxChar.slot, frac := frac }

/-- A slot character as it is sent. -/
def SlotChar.char : SlotChar → LChar
  | .data b => .d b
  | .open_ => k27_7
  | .close => k29_7
  | .abort => k30_7
  | .bad => k30_7

end Sys2Proof.Machine
end

