-- ==== Sys2Proof/Machine/TypesLinks.lean ====
section
/-!
DEFINITION. The state of the register access paths, the lanes, the spool, the control rings and the Brix ring
(09, 10, 11, 12, 17).
-/

namespace Sys2Proof.Machine

open Sys2Proof

/-- What one access path keeps for itself (17 R467 Table 17.2). -/
structure PathState where
  /-- Read snapshot: address of the low word and the captured value. -/
  snap : Option (Nat × BitVec 64)
  /-- Write shadow: address of the low word and the held low half. -/
  shadow : Option (Nat × Word)
  /-- W1C bits [4:0] of TOP_PATH_STAT. -/
  stat : BitVec 5
  armed : Bool
  replyDrop : Nat
  calSel : Nat
  stnSel : Nat
  ctrSel : Nat
  skewSel : Nat
  winAddr : Nat
  bankSel : Nat
  /-- TIME_CAP_ registers, in the order of Table 2.8. -/
  caps : List (BitVec 64)
  /-- SPL_Cc_QSTAT.FULL, bit c. -/
  full : Byte
  deriving DecidableEq, Repr

/-- A receive lane (09 R284). -/
inductive RxStat where
  | los | acquire | aligned | up
  deriving DecidableEq, Repr

/-- A downlink or Brix receive lane (09 R284, Table 9.14; 12 R347). -/
structure RxLaneState where
  stat : RxStat
  /-- Running disparity after the last symbol received (09 R264). -/
  rd : Bool
  /-- Consecutive frames with character 0 in place, while not UP. -/
  goodRun : Nat
  /-- Consecutive frames with character 0 not in place. -/
  badRun : Nat
  /-- Code errors of the last 64 frames, newest first. -/
  errs : List Nat
  codeErr : Nat
  extRsvd : Nat
  /-- Master crossing of the last frame, counted from its K28.1. -/
  masterX : Option Nat
  /-- HOPS of the last two K28.1 frames of a Brix stream, newest first. -/
  hops : List Nat
  /-- Last received RHDR. -/
  rhdr : Byte
  /-- Crossings since a valid frame marked ACT arrived. -/
  sinceAct : Nat
  /-- Consecutive crossings that brought a frame marked ACT. -/
  actRun : Nat
  /-- The last frames of a Brix stream, newest first, at most 64: master crossing, and characters 1 and 2 of a frame that may
  be acted on (12 R343). -/
  fcs : List (Nat × Option (Byte × Byte))
  /-- Bytes of the ring message packet being received, and whether it is being passed on: `none` until its destination is
  known (12 R341). -/
  slotBuf : Option (List Byte)
  slotPass : Option Bool
  /-- Crossing of the hub's clock and fraction in which the last K28.1 arrived. -/
  k281 : Option (Nat × Nat)
  /-- DL_TAP requests are being sent, and when the last one was (09 R280). -/
  tapReq : Bool
  tapAt : Option Nat
  deriving DecidableEq, Repr

/-- The states of a trained lane (09 R273 Table 9.6). -/
inductive TState where
  | off | acquire | equalise | switch | test | join | up | backoff
  deriving DecidableEq, Repr

/-- What a data lane has in progress (10 R297). -/
inductive LaneJob where
  | idle
  | packet (cls seq : Nat)
  | launch (ring sq : Nat)
  deriving DecidableEq, Repr

/-- A trained transmit lane: UL0 to UL31 are 0 to 31, Brix P is 32, Brix Q is 33 (09 R273, R276). -/
structure TxLane where
  st : TState
  step : Nat
  /-- The switch crossing, in the hub's own count. -/
  switchAt : Nat
  /-- When the present attempt entered ACQUIRE, or the last valid LANE_TRAIN arrived. -/
  timerFrom : Nat
  /-- When the present step began after a switch. -/
  stepFrom : Option Nat
  /-- When TEST was entered, and the orbit length then. -/
  testFrom : Nat
  testN : Nat
  backoffFrom : Nat
  attempts : Nat
  downCount : Nat
  swing : Nat
  pre : Nat
  post : Nat
  /-- RESP of the next training sequence. -/
  resp : Byte
  job : LaneJob
  /-- Running disparity after the last character sent (09 R264). -/
  rd : Bool
  /-- TSEQ of the next training sequence, and the character of the next crossing that it begins with (09 R274); on a data
  lane that is UP, whether the crossing at hand carries anything but idles (09 R265). -/
  tseq : Nat
  seqAt : Nat
  /-- TAPS requests of an UP lane that wait for an idle character, oldest first (09 R281). -/
  taps : List Nat
  deriving DecidableEq, Repr

/-- A closed packet (10 R291, R294). -/
structure Packet where
  seq : Nat
  payload : List Byte
  bmark : Bool
  start : Bool
  write : Bool
  restart : Bool
  /-- Times sent so far. -/
  sends : Nat
  /-- Resends on timeout that have started, and whether its queued resend is one (10 R305). -/
  tmoResends : Nat
  onTmo : Bool
  /-- Its resend was queued after a lane loss, and not on timeout or request (10 R305). -/
  forLoss : Bool
  lane : Nat
  /-- When its last sending ended, in `SpoolState.upTicks`; `none` while it is on the wire or not yet sent. -/
  sentAt : Option Nat
  /-- The SPOOL macro that holds it (14 R397). -/
  inMacro : Nat
  deriving DecidableEq, Repr

/-- The open packet of a class (10 R294). -/
structure OpenPacket where
  bytes : List Byte
  firstAt : Nat
  start : Bool
  write : Bool
  deriving DecidableEq, Repr

/-- The spool's state of one class (10 R295 to R305). -/
structure SpoolClass where
  open_ : Option OpenPacket
  /-- Closed packets not yet sent. -/
  queue : List Packet
  /-- Packets sent and not released. -/
  held : List Packet
  /-- Sequence numbers of held packets queued for resending, ascending. -/
  resend : List Nat
  nextSeq : Nat
  lastSent : Option Nat
  bm : Nat
  limit : Nat
  used : Nat
  rsndLane : Nat
  rsndTmo : Nat
  deriving DecidableEq, Repr

/-- A run of discarded class-1 groups (06 R175). -/
structure HitRun where
  header : List Byte
  /-- How many crossings it holds. -/
  len : Nat
  deriving DecidableEq, Repr

/-- A run of discarded class-4 records (06 R199). -/
structure MonRun where
  datum : BitVec 64
  /-- Running count of its first crossing. -/
  firstX : Nat
  len : Nat
  types : Word
  deriving DecidableEq, Repr

/-- A record that waits for room in the share of its class (10 R296, R308). -/
structure Waiting where
  cls : Nat
  bytes : List Byte
  start : Bool
  write : Bool
  /-- It has a packet of its own (06 R188). -/
  alone : Bool
  /-- ACC_SEQ of the accept whose queue entry its placing releases (06 R183). -/
  frees : Option Nat
  deriving DecidableEq, Repr

/-- The spool (10). -/
structure SpoolState where
  classes : Tab SpoolClass
  /-- Records that wait, oldest first (10 Table 10.5). -/
  waiting : List Waiting
  /-- Packet starts counted in the present window of 64, and those of classes 3 and 7. -/
  winStarts : Nat
  win3 : Nat
  win7 : Nat
  laneRsnd : Nat
  /-- Crossings so far with at least one data lane UP: the time base of the acknowledgement timer (10 R305). -/
  upTicks : Nat
  /-- Runs of discarded groups not yet reported, oldest first (06 R175). -/
  hitRuns : List HitRun
  monRun : Option MonRun
  deriving DecidableEq, Repr

/-- A fetched descriptor that is not yet accepted (11 R321, R325). -/
structure Fetched where
  sq : Nat
  bytes : List Byte
  /-- Position in fetch order across rings. -/
  ord : Nat
  deriving DecidableEq, Repr

/-- A control ring pair (11 R316, R334). -/
structure Ring where
  st : Nat
  tail : Nat
  fetch : Nat
  write : Nat
  head : Nat
  fetched : List Fetched
  /-- Accepted and not released: SQ index and whether it has committed. -/
  accepted : List (Nat × Bool)
  /-- SQ indices marked by an ABORT before acceptance (11 R332). -/
  marked : List Nat
  /-- Opcodes of the last 2^SQ_LOG2 descriptors fetched, newest first, by SQ index. -/
  recent : List (Nat × Nat)
  /-- Descriptors that may still be fetched in the present turn. -/
  turn : Nat
  deriving DecidableEq, Repr

/-- What a read of host memory is for. -/
inductive ReadUse where
  | fetch (ring first count ord : Nat)
  | chain (ring sq : Nat)
  | mask (ring sq : Nat)
  | fwHeader (ring sq : Nat)
  | fwChunk (oid : Nat)
  deriving DecidableEq, Repr

/-- An outstanding read (11 R314, R315). -/
structure HostRead where
  rtag : Nat
  addr : Nat
  len : Nat
  use : ReadUse
  /-- Bytes received, by offset. -/
  data : Tab (Option Byte)
  issuedAt : Nat
  reissues : Nat
  deriving DecidableEq, Repr

/-- Data read for a descriptor before it is accepted (07 R215, R216; 15 R426). -/
structure Prep where
  ring : Nat
  sq : Nat
  chain : Option (List Byte)
  mask : Option (List Byte)
  failed : Bool
  deriving DecidableEq, Repr

/-- A committed completion that waits to be released (11 R330). -/
structure Completion where
  ring : Nat
  sq : Nat
  status : Byte
  tag : Word
  commitX : Nat
  quality : Byte
  resumed : Bool
  result : List Byte
  /-- Packets that must be delivered first (10 R304). -/
  needs : List (Nat × Nat)
  /-- The ABORT target whose completion must be released first (11 R333). -/
  after : Option (Nat × Nat)
  /-- The other head's completion of a board operation, beside the descriptor's own (12 R358). -/
  extra : Bool
  deriving DecidableEq, Repr

/-- A kept REG_ACCESS (17 R476). -/
structure KeptReply where
  atag : Nat
  crc : BitVec 16
  reply : List Byte
  deriving DecidableEq, Repr

/-- An ABORT that waits for the fetch of its target (11 R332): its own ring, SQ index and TAG, and its target's ring and SQ index. -/
structure AbortWait where
  ring : Nat
  sq : Nat
  tag : Word
  targetRing : Nat
  targetSq : Nat
  deriving DecidableEq, Repr

/-- The control stream and the rings (11). -/
structure CtlState where
  rings : Tab Ring
  reads : List HostRead
  nextTag : Nat
  preps : List Prep
  committed : List Completion
  /-- Operations whose outcome an ABORT, or the loss of their state, has decided, and that stop at their next stopping point:
  ring and SQ index (11 R333). -/
  stopping : List (Nat × Nat)
  /-- ABORTs that wait for the fetch of their target, by which the hub learns whether it is an ABORT itself (11 R332). -/
  aborts : List AbortWait
  /-- Completions released and not yet written, in release order (11 R330). -/
  released : List Completion
  /-- Operations in progress on an engine that restarted: ring and SQ index (15 R420). -/
  resumed : List (Nat × Nat)
  kept : List KeptReply
  /-- Nine-byte frames of the message being parsed, and of both downlinks' position in it (11 R310). -/
  frames : List (List (Option Byte))
  /-- Ring served last at each PRIO. -/
  lastServed : List Nat
  /-- Descriptors fetched so far, over all rings. -/
  fetchOrd : Nat
  /-- Operations accepted so far. -/
  nextOid : Nat
  msgDrop : Nat
  dbBad : Nat
  rdFail : Nat
  rdRetry : Nat
  deriving DecidableEq, Repr

/-- A board operation committed (12 R358). -/
structure BoardOp where
  bseq : Nat
  status : Byte
  result : List Byte
  /-- This head's role at the commit: 1 ACTIVE, 2 STANDBY. -/
  role : Nat
  deriving DecidableEq, Repr

/-- A RING_RELEASE that waits for its target or for its position to be seen bypassed. -/
structure Release where
  position : Nat
  orbit : Nat
  bseq : Nat
  deriving DecidableEq, Repr

/-- A board operation taken up and not committed: its descriptor's body from BSEQ on, and the ring it came from, the other
head's when `remote` (12 R358). -/
structure BoardWait where
  remote : Bool
  ring : Nat
  sq : Nat
  tag : Word
  bseq : Nat
  opcode : Nat
  body : List Byte
  resumed : Bool
  deriving DecidableEq, Repr

/-- A ROLE ARM (12 R363): of this head's own stake `sid`, or the partner's. -/
structure Arm where
  sid : Nat
  newActive : Nat
  bseq : Nat
  target : BitVec 64
  /-- The decision for its target: swap or not, and the completion status; and whether DECIDE has been sent. -/
  decided : Option (Bool × Byte)
  told : Bool
  deriving DecidableEq, Repr

/-- The transmit side of a Brix port (12 R340, R341). -/
structure PortTx where
  /-- Characters of packets that pass, at most 512, and whether one is in progress. -/
  pass : List LChar
  midPass : Bool
  /-- What is left of an own packet in progress, and the own packets that wait. -/
  cur : List LChar
  own : List (List Byte)
  /-- When the last frame was sent, and the master crossing it carried. -/
  sentAt : Option Nat
  x : Option Nat
  deriving DecidableEq, Repr

/-- The role of a head (12 R355). -/
inductive Role where
  | none | active | standby
  deriving DecidableEq, Repr

/-- The Brix ring and the head pair (12). -/
structure BrixState where
  bypassOpen : Bool
  leaving : Bool
  role : Role
  sync : Bool
  syncRun : Nat
  /-- Command frames of the ring acted on, newest first, at most 64: master crossing, and when by the hub's own count
  (12 R343). -/
  taken : List (Nat × Nat)
  /-- A base copy of the mirrored state has been applied (12 R364). -/
  baseApplied : Bool
  mirrorVer : Nat
  /-- The mirror or the other head's stream carried MIRROR traffic in this orbit. -/
  mirrorSeen : Bool
  /-- Latest HUB_STATUS of each position: body, orbit of arrival. -/
  status : Tab (List Byte × Nat)
  /-- Latest RING_MAP body and the orbit in which it came. -/
  ringMap : Option (List Byte × Nat)
  admits : List Nat
  admitNext : Nat
  /-- Pending releases of the active head; the RING_MAP names them in turn, the first one next (12 R357). -/
  releases : List Release
  /-- The orbit in which a RING_MAP asked this hub to close its bypass (12 Table 12.4). -/
  leaveOrbit : Option Nat
  ops : List BoardOp
  waits : List BoardWait
  /-- Pending ROLE_SWAPs of this head and of its partner. -/
  arms : List Arm
  partnerArms : List Arm
  /-- The other head's BRX_CFG and BRX_FAULT as mirrored (12 R357). -/
  partnerCfg : Word
  partnerFault : Word
  /-- A mirror version has been missed, and a base copy is asked for (12 R357). -/
  wantBase : Bool
  /-- MIRROR messages that wait to be sent, each with the packets that must be delivered first; and messages of the other
  head that came during a restart of E7: type and body (01 R28, 12 R357). -/
  mirrorOut : List (List (Nat × Nat) × List Byte)
  heldIn : List (Nat × List Byte)
  /-- The transmit sides of the two ports. -/
  txP : PortTx
  txQ : PortTx
  /-- Departure stamps of the hub's own K28.1 on each port. -/
  t1P : Nat
  t1Q : Nat
  linkP : Int
  linkQ : Int
  /-- The orbits in which the links were last measured. -/
  linkPAt : Option Nat
  linkQAt : Option Nat
  pathA : Nat
  pathAValid : Bool
  pathB : Nat
  pathBValid : Bool
  preferB : Bool
  rseqs : List Nat
  rseqDup : Nat
  fcDiff : Nat
  /-- The digest input: orbit, FC byte and RHDR of each crossing; orbit and 16 bytes of each board operation committed; orbit
  and version of each mirror version, newest first (12 R359). -/
  digestIn : List (Nat × Byte × Byte)
  opsIn : List (Nat × List Byte)
  verLog : List (Nat × Nat)
  /-- The first orbit that this head forms a digest of (12 R364). -/
  closeFrom : Option Nat
  /-- Arms that have left the stake table and whose going is still to be mirrored (12 R357). -/
  armsGone : List Arm
  /-- Evidence of the orbit in progress, and orbits ended whose digest is still to be formed, with theirs. -/
  evidence : Byte
  ended : List (Nat × Byte)
  digests : List (Nat × Word × Byte)
  partnerDigests : List (Nat × Word × Byte)
  compared : List Nat
  mismatches : Nat
  closureRun : Nat
  attrib : Nat
  missing : Bool
  lastMatch : Bool
  mismatchOrbit : Nat
  /-- Consecutive mismatches attributed to the active head or its downlink (12 R361). -/
  blameRun : Nat
  /-- The orbit whose digest was sent last (12 R359). -/
  closureSent : Option Nat
  swapAtGap : Bool
  splitAtGap : Bool
  deriving DecidableEq, Repr

/-- What a serial lane sends in one piece (09 R265, R274, R291; 02 R54, R76; 06 R180; 12 R339). -/
inductive LineItem where
  | packet (chars : List LChar)
  | abort (chars : List LChar)
  | exchange (chars : List LChar)
  | launch (chars : List LChar)
  /-- A launched frame ends with its lane. -/
  | cut
  | primitive (x : Nat) (chars : List LChar)
  | training (chars : List LChar)
  | brixFrame (chars : List LChar)
  /-- K28.5 idle characters. -/
  | idle (count : Nat)
  deriving DecidableEq, Repr

/-- Its characters. -/
def LineItem.chars : LineItem → List LChar
  | .idle n => List.replicate n k28_5
  | .packet c | .abort c | .exchange c | .launch c | .primitive _ c | .training c | .brixFrame c => c
  | .cut => []

/-- An item of a data lane, which sends idle characters before it (09 R265). -/
def LineItem.afterIdles : LineItem → Bool
  | .packet _ | .exchange _ | .launch _ => true
  | .abort _ | .cut | .primitive _ _ | .training _ | .brixFrame _ | .idle _ => false

/-- What leaves the hub (the model's own record, newest first). -/
inductive Tx where
  | spiWord (w : Word)
  /-- A serial lane, the running disparity at its first character, and what it sends: its symbols follow from the two
  (09 R264). -/
  | line (lane : Nat) (rd : Bool) (item : LineItem)
  /-- A ring message is handed to the slots of a port, or of both (12 R341). -/
  | brixMessage (port : Option Port) (type : Nat) (body : List Byte)
  deriving DecidableEq, Repr

/-- The symbols that a record of a serial lane stands for (00 R9, 09 R264). -/
def Tx.symbols : Tx → List (BitVec 10)
  | .line _ rd item => encodeChars rd item.chars
  | .spiWord _ | .brixMessage _ _ _ => []

end Sys2Proof.Machine
end

