-- ==== Sys2Proof/Machine/TypesTime.lean ====
section
/-!
DEFINITION. The state of the time bases, the exchange, the phase servo, the tie records, the stakes and the power and
start-up sequencer (02, 16).
-/

namespace Sys2Proof.Machine

open Sys2Proof

/-- A decoded command frame whose commands act when the hub's own count reaches `act` (02 R47). -/
structure FcEntry where
  act : Nat
  fc : Byte
  deriving DecidableEq, Repr

/-- A change of Datum: from running count `x` on, the Datum counts from `orbit`, `cross` (07 R213). -/
structure DatumChange where
  x : Nat
  orbit : Nat
  cross : Nat
  len : Nat
  /-- Not only the orbit length changed. -/
  real : Bool
  deriving DecidableEq, Repr

/-- The time bases and what is scheduled on them (02 R39, R46, R47). -/
structure TimeState where
  /-- Crossings of the hub's own clock since the last reset. -/
  now : Nat
  /-- Crossings so far with at least one downlink UP: the time base of TRAIN_TIMEOUT (09 R277). -/
  dlTicks : Nat
  /-- Sampling has started (16 R455). -/
  sampling : Bool
  /-- Running crossing count, 64 bits. -/
  xcount : Nat
  /-- Datum orbit, 44 bits. -/
  orbit : Nat
  /-- Datum crossing in orbit, 13 bits. -/
  cross : Nat
  /-- Meridian seconds, 64 bits. -/
  merS : Nat
  /-- Meridian picoseconds, 40 bits. -/
  merPs : Nat
  /-- The 2⁻²⁴ ps part of Meridian (02 R44). -/
  merFrac : Nat
  /-- Plumb, 64 bits. -/
  plumb : Nat
  /-- Staff integer, 64 bits. -/
  staff : Nat
  /-- Staff's 32 hidden fraction bits. -/
  staffFrac : Nat
  /-- N and G in effect (02 R46). -/
  orbitN : Nat
  orbitG : Nat
  /-- The crossing at which an ORBIT_ACT armed the staged orbit values. -/
  orbitArm : Option Nat
  /-- Fast commands that wait for their acting crossing. -/
  fcQueue : List FcEntry
  /-- RESYNC waits for the next K28.1 (02 R50). -/
  resyncWait : Bool
  /-- The last changes of Datum, newest first, at most 1024 (07 R213). -/
  changes : List DatumChange
  /-- The crossings at which the once-a-crossing rows last ran. -/
  orbitStartAt : Option Nat
  gapStartAt : Option Nat
  testOnAt : Option Nat
  testOffAt : Option Nat
  travAt : Option Nat
  primAt : Option Nat
  blockAt : Option Nat
  cutAt : Option Nat
  groupAt : Option Nat
  /-- Orbits begun since sampling began. -/
  orbitNo : Nat
  /-- The last writes of TIME_MER_PERIOD, newest first: running count, value before (05 R148). -/
  periods : List (Nat × Nat)
  /-- When the temperature sets were last written to the settings area, by the hub's own count (04 R128). -/
  saveAt : Option Nat
  deriving DecidableEq, Repr

/-- An exchange frame the hub sent (02 R54, R56). -/
structure SentFrame where
  xseq : Nat
  t2 : Nat
  t3 : Nat
  orbit : Nat
  /-- Its K28.1 came over DLB or head B's stream (02 R62, 12 R347). -/
  onB : Bool
  /-- Number of the exchange in which it was sent, and the crossing of its departure. -/
  exch : Nat
  sentNow : Nat
  deriving DecidableEq, Repr

/-- A servo update or step that waits for its gap (02 R58, R60). -/
structure PhaseMove where
  /-- First crossing at which its gap may begin. -/
  from_ : Nat
  /-- φ before its rounding to 0.5 ps, 2⁻⁴⁹ ps units. -/
  phiFine : Int
  /-- Whole crossings added to the Datum. -/
  add : Int
  /-- A sampling-phase step (02 R51). -/
  phaseStep : Bool
  /-- A step of R60. -/
  step : Bool
  deriving DecidableEq, Repr

/-- The servo and the exchange (02 R52 to R61, R516). -/
structure ServoState where
  /-- φ in effect, 0.5 ps units. -/
  phi : Int
  /-- φ before its rounding to 0.5 ps with every pending move taken, 2⁻⁴⁹ ps units. -/
  phiFine : Int
  /-- e of the last update, 2⁻⁴⁹ ps units. -/
  ePrev : Option Int
  everLocked : Bool
  locked : Bool
  holdPhase : Bool
  lockRun : Nat
  unlockRun : Nat
  /-- Exchanges begun since the last accepted report. -/
  missRun : Nat
  updates : Nat
  clamped : Bool
  lastStepped : Bool
  /-- Last e_n and last accepted round trip as their registers show them, 1/16 ps. -/
  err : Int
  rtt : Int
  /-- The last 16 accepted round trips, newest first, 2⁻⁴⁸ ps units: over DLA or head A's stream, and over DLB or head B's
  (02 R56, R62). -/
  rtts : List Int
  rttsB : List Int
  /-- Updates and steps that wait for their gaps, oldest first (02 R58, R60). -/
  moves : List PhaseMove
  /-- An orbit adoption: earliest gap crossing, and what is added to the Datum orbit (02 R55). -/
  adopt : Option (Nat × Nat)
  xseq : Nat
  /-- Exchange orbits begun since phase TIME began, and XCH_DIV in effect for this orbit. -/
  exch : Nat
  xchDiv : Nat
  /-- The last measured one-way downlink delay, 2⁻⁴⁹ ps units, whichever stream it was measured on, and the last on each
  (02 R48, R62, R66). -/
  delay : Option Int
  delayA : Option Int
  delayB : Option Int
  sent : List SentFrame
  /-- Stamp and Datum orbit of the K28.1 of the current exchange orbit. -/
  k281 : Option (Nat × Nat)
  /-- It came over DLB or head B's stream. -/
  k281B : Bool
  /-- The exchange frame of the current exchange orbit is still to be sent. -/
  frameDue : Bool
  /-- Servo parameters written since E3 restarted wait for a gap crossing (15 Table 15.1). -/
  held : Bool
  deriving DecidableEq, Repr

/-- A tie record as sent: 48 bytes (02 R68). -/
structure TieRec where
  bytes : List Byte
  deriving DecidableEq, Repr

/-- The hub's dealings with its reference (02 R62 to R67, R516; 09 R272). -/
structure RefState where
  holdover : Bool
  free : Bool
  onFallback : Bool
  /-- A reference has been usable since reset. -/
  everUsable : Bool
  /-- A reference is usable, and the source of crossing 0, as last seen: 0 none, 1 DLA, 2 DLB, 3 the ring, 4 the partner's
  frames (02 R62, R67; 12 R349). -/
  usable : Bool
  source : Nat
  /-- A reference has returned whose K28.1 is still to be checked (02 R66). -/
  check : Bool
  /-- The Datum has been taken from a received K28.1 since reset (02 R60). -/
  aligned : Bool
  /-- Found unusable by the frequency check (09 R272). -/
  dlaBad : Bool
  dlbBad : Bool
  brixPBad : Bool
  brixQBad : Bool
  refclkBad : Bool
  /-- When the hub left its last reference, by its own count; the stations' junction temperatures then, and the largest change
  of one since, in units of 1/16 °C (02 R64). -/
  heldAt : Option Nat
  heldTemps : List Int
  heldDev : Nat
  /-- A returned reference differs by whole crossings and the Datum still stands (02 R66). -/
  slip : Bool
  deriving DecidableEq, Repr

/-- When the action of a stake found past runs (02 R71, R72): in a crossing of the hub's own count, or at the first crossing
0 after one. -/
inductive LateRun where
  | at_ (now : Nat)
  | nextZero (after : Nat)
  deriving DecidableEq, Repr

/-- A pending stake (02 R69 to R73). -/
structure Stake where
  sid : Nat
  ring : Nat
  sq : Nat
  tag : Word
  orbit : Nat
  x : Nat
  /-- N in effect at acceptance (02 R70). -/
  n : Nat
  runLate : Bool
  action : Nat
  /-- Bytes 12 to 47 of the descriptor body. -/
  args : List Byte
  /-- When a stake found past runs under RUN_LATE. -/
  lateAt : Option LateRun
  /-- The queued-frame buffer as read the second time (02 R75). -/
  frame : Option (List Byte)
  /-- A frame whose target has come while its lane was not free (02 R75; notes/assumptions/82.md). -/
  held : Bool
  resumed : Bool
  deriving DecidableEq, Repr

/-- The start-up phases (16 R454). -/
inductive Phase where
  | rails | fuse | settings | memtest | stack | image | links | time | cal | join | run | fault
  deriving DecidableEq, Repr

/-- Power, clocks and start-up (16). -/
structure PowerState where
  phase : Phase
  faultPhase : Nat
  faultDetail : Nat
  pllLocked : Bool
  pllAcq : Bool
  /-- Stations whose start-up calibration run has not ended, in phase CAL. -/
  calWait : List Nat
  /-- No image could start (15 R435). -/
  bootFail : Bool
  /-- Both settings copies failed (16 Table 16.4). -/
  settingsBad : Bool
  /-- Settings copies that read good. -/
  copyAOk : Bool
  copyBOk : Bool
  /-- Islands stretched now, and when each began (01 R32). -/
  stretched : Tab Nat
  /-- When PWR_SOFT_RESET took its key; the reset follows 10 µs later (16 R453). -/
  softReset : Option Nat
  /-- When the rails were last measured (16 Table 16.6). -/
  railAt : Nat
  deriving DecidableEq, Repr

end Sys2Proof.Machine
end

