-- ==== Sys2Proof/Machine/Init.lean ====
section
/-!
DEFINITION. What each part of State holds right after a reset (16 R451, 17 R465): the reset values of the register
tables, and the values that notes/assumptions/5.md names where the manual gives none.
-/

namespace Sys2Proof.Machine

open Sys2Proof

/-- Time bases after reset (02 Table 2.8). -/
def TimeState.init : TimeState where
  now := 0
  dlTicks := 0
  sampling := false
  xcount := 0
  orbit := 0
  cross := 0
  merS := 0
  merPs := 0
  merFrac := 0
  plumb := 0
  staff := 0
  staffFrac := 0
  orbitN := 2800
  orbitG := 112
  orbitArm := none
  fcQueue := []
  resyncWait := false
  changes := []
  orbitStartAt := none
  gapStartAt := none
  testOnAt := none
  testOffAt := none
  travAt := none
  primAt := none
  blockAt := none
  cutAt := none
  groupAt := none
  orbitNo := 0
  periods := []
  saveAt := none

/-- The servo after reset (02 R516). -/
def ServoState.init : ServoState where
  phi := 0
  phiFine := 0
  ePrev := none
  everLocked := false
  locked := false
  holdPhase := false
  lockRun := 0
  unlockRun := 0
  missRun := 0
  updates := 0
  clamped := false
  lastStepped := false
  err := 0
  rtt := 0
  rtts := []
  rttsB := []
  moves := []
  adopt := none
  xseq := 0
  exch := 0
  xchDiv := 1
  delay := none
  delayA := none
  delayB := none
  sent := []
  k281 := none
  k281B := false
  frameDue := false
  held := false

/-- The reference after reset (02 R516). -/
def RefState.init : RefState where
  holdover := false
  free := false
  onFallback := false
  everUsable := false
  usable := false
  source := 0
  check := false
  aligned := false
  dlaBad := false
  dlbBad := false
  brixPBad := false
  brixQBad := false
  refclkBad := false
  heldAt := none
  heldTemps := []
  heldDev := 0
  slip := false

/-- Power and start-up after a power reset (16 R454). -/
def PowerState.init : PowerState where
  phase := .rails
  faultPhase := 0
  faultDetail := 0
  pllLocked := false
  pllAcq := false
  calWait := []
  bootFail := false
  settingsBad := false
  copyAOk := true
  copyBOk := true
  stretched := []
  softReset := none
  railAt := 0

/-- An access path after reset (17 Table 17.2). -/
def PathState.init : PathState where
  snap := none
  shadow := none
  stat := 0
  armed := false
  replyDrop := 0
  calSel := 0
  stnSel := 0
  ctrSel := 0
  skewSel := 0
  winAddr := 0
  bankSel := 0
  caps := [0, 0, 0, 0, 0, 0, 0]
  full := 0

/-- A receive lane after reset (09 Table 9.14). -/
def RxLaneState.init : RxLaneState where
  stat := .los
  rd := false
  goodRun := 0
  badRun := 0
  errs := []
  codeErr := 0
  extRsvd := 0
  masterX := none
  hops := []
  rhdr := 0
  sinceAct := 0
  actRun := 0
  fcs := []
  slotBuf := none
  slotPass := none
  k281 := none
  tapReq := false
  tapAt := none

/-- A transmit lane after reset (09 Tables 9.15, 9.16). -/
def TxLane.init : TxLane where
  st := .off
  step := 0
  switchAt := 0
  timerFrom := 0
  stepFrom := none
  testFrom := 0
  testN := 0
  backoffFrom := 0
  attempts := 0
  downCount := 0
  swing := 4
  pre := 0
  post := 4
  resp := 0
  job := .idle
  rd := false
  tseq := 0
  seqAt := 0
  taps := []

/-- A class of the spool after reset (10 R302, Table 10.6). -/
def SpoolClass.init : SpoolClass where
  open_ := none
  queue := []
  held := []
  resend := []
  nextSeq := 0
  lastSent := none
  bm := 0xFFFFFFFF
  limit := 0
  used := 0
  rsndLane := 0
  rsndTmo := 0

/-- The spool after reset (10 R307). -/
def SpoolState.init : SpoolState where
  classes := []
  waiting := []
  winStarts := 0
  win3 := 0
  win7 := 0
  laneRsnd := 0
  upTicks := 0
  hitRuns := []
  monRun := none

/-- A ring after reset (11 Table 11.10). -/
def Ring.init : Ring where
  st := 0
  tail := 0
  fetch := 0
  write := 0
  head := 0
  fetched := []
  accepted := []
  marked := []
  recent := []
  turn := 0

/-- The control stream and the rings after reset. -/
def CtlState.init : CtlState where
  rings := []
  reads := []
  nextTag := 0
  preps := []
  committed := []
  stopping := []
  aborts := []
  released := []
  resumed := []
  kept := []
  frames := []
  lastServed := [31, 31, 31, 31]
  fetchOrd := 0
  nextOid := 0
  msgDrop := 0
  dbBad := 0
  rdFail := 0
  rdRetry := 0

/-- The transmit side of a Brix port after reset. -/
def PortTx.init : PortTx where
  pass := []
  midPass := false
  cur := []
  own := []
  sentAt := none
  x := none

/-- The Brix ring and the head pair after reset. -/
def BrixState.init : BrixState where
  bypassOpen := false
  leaving := false
  role := .none
  sync := false
  syncRun := 0
  taken := []
  baseApplied := false
  mirrorVer := 0
  mirrorSeen := false
  status := []
  ringMap := none
  admits := []
  admitNext := 0
  releases := []
  leaveOrbit := none
  ops := []
  waits := []
  arms := []
  partnerArms := []
  partnerCfg := 0
  partnerFault := 0
  wantBase := false
  mirrorOut := []
  heldIn := []
  txP := .init
  txQ := .init
  t1P := 0
  t1Q := 0
  linkP := 0
  linkQ := 0
  linkPAt := none
  linkQAt := none
  pathA := 0
  pathAValid := false
  pathB := 0
  pathBValid := false
  preferB := false
  rseqs := []
  rseqDup := 0
  fcDiff := 0
  digestIn := []
  opsIn := []
  verLog := []
  closeFrom := none
  armsGone := []
  evidence := 0
  ended := []
  digests := []
  partnerDigests := []
  compared := []
  mismatches := 0
  closureRun := 0
  attrib := 0
  missing := false
  lastMatch := false
  mismatchOrbit := 0
  blameRun := 0
  closureSent := none
  swapAtGap := false
  splitAtGap := false

/-- A constant that reads `v`. -/
def Const.init (v : Int) : Const where
  eff := v
  meas := v
  theta := none
  shift := 0

/-- A channel after reset (04 Table 4.6, 05 R154, R155). -/
def Channel.init : Channel where
  gain := .g64
  c64 := 0
  c8 := 0
  nextGain := .g64
  prevSwitch := false
  la64 := 0
  started := false
  hist := []
  preloads := []
  env := 0
  goodEnv := none
  settles := []
  outs := []
  hitLabels := []
  ped64 := .init 0
  ped8 := .init 0
  ped1 := .init 0
  ratio8 := .init 0x80000
  ratio1 := .init 0x400000
  evenSum := 0
  evenCnt := 0
  oddSum := 0
  oddCnt := 0
  pedFrom := 0
  enLog := []
  feAt := none
  jump8 := 0
  jump1 := 0
  skRes := 0
  skSq := 0
  skCnt := 0
  sets := []
  visitEven := none
  visitOdd := none
  shownAge := (0xFFFF, true)
  calFrom := 0
  calThrough := 0
  sumOn := 0
  sumOff := 0
  dcClip := false
  trims := []
  result := 6
  rMeas := 0
  faultRun := 0
  clearRun := 0
  fault := false
  detMax := none
  detMin := none
  detSq := 0
  detCnt := 0
  detFlags := 0
  postMax := 0
  postMin := 0
  postRms := 0
  postEnv := 0
  postFlags := 0

/-- A slice after reset (04 Table 4.9). -/
def Slice.init : Slice where
  offs := 0
  gain := 0
  skew := 0
  measOffs := 0
  measGain := 0
  measSkew := 0
  theta := none
  shift := (0, 0, 0)
  faulty := false
  convs := 0
  selfErrs := []
  hardErr := false
  firstErr := none
  limitRun := 0
  gainRun := 0
  lostFrom := none
  shown := (0, 0, 0)

/-- A station after reset (04 Table 4.10, 05 Table 5.3). -/
def Station.init : Station where
  st := 0
  idx := 0
  job := none
  runReq := false
  runLeft := []
  owed := none
  spareSkew := 0
  skMeas := 0
  skShift := 0
  skDm := 0
  skMm := 0
  skCnt := 0
  spareUsed := none
  spareFrom := 0
  spareBefore := none
  spareFault := false
  failed := 0
  halfCh := none
  handed := none
  parLast := none
  theta := 0
  thetaMeas := 0
  lastTheta := 0
  interpDue := false
  spareSets := []
  fltOld := []
  fltAt := 0
  applyAt := none
  settleCount := 0
  settleInfo := (0, 0)
  settleFirst := (0, 0)
  profCnt := 0
  detAt := none

/-- An injection source after reset (03 Table 3.14). -/
def InjSource.init : InjSource where
  out := 0
  firedAt := 0
  onFrom := 0
  width := 0
  delay := 0
  lastOn := none
  was := none

/-- The DC input test after reset. -/
def DcTest.init : DcTest where
  begun := false
  current := false
  cuts := 0
  held := none
  startX := 0
  seq := 0

/-- Dead-time totals after reset (06 Table 6.16). -/
def DeadTime.init : DeadTime where
  acc := 0
  self := 0
  accGap := 0
  accHist := 0
  busyX := 0
  hitGapX := 0
  profGapX := 0
  primLate := 0

/-- A mask after reset. -/
def Mask.init : Mask := ⟨none, 0, 0⟩

/-- Hits and triggers after reset (06 Tables 6.13, 6.16). -/
def TrigState.init : TrigState where
  gseqNext := 0
  gseqLast := 0
  groupX := 0
  groupOrbit := 0
  groupCross := 0
  hitRing := []
  ringFrom := 0
  accQueue := []
  accSeqNext := 0
  accSeqLast := 0
  accGapCount := 0
  win := 0x1A52
  winNext := []
  hitStage := []
  sagLost := []
  trv := ⟨false, 0, 0, [0, 0, 0, 0], false⟩
  ctr := ⟨[], 0, 0, (0, 0), 0, none⟩
  dt := .init
  dtPrev := .init
  dtFrom := 0
  twLate := 0
  calpulses := []
  hitNow := []
  primLast := none

/-- The history store after reset (07 R204, Table 7.9). -/
def HistState.init : HistState where
  index := []
  blocks := []
  allocTotal := 0
  periods := 0
  sizes := []
  toIndex := []
  lost := []
  pins := []
  pinBlocks := []
  recalls := []
  nextRid := 0
  lastRid := none
  errCount := 0
  evictCount := 0
  scrubBytes := 0
  scrubPasses := 0
  scrubDebt := false
  scrubNext := 0
  scrubNo := 0
  scrubStart := 0
  cmpSets := []
  errX := 0
  errInfo := 0
  errHeader := 0
  errIllegal := 0
  errDistance := 0
  errLength := 0
  checkCount := 0
  storedCount := 0

/-- A survey result after reset (13 Table 13.7). -/
def SrvRes.init : SrvRes where
  value := 0
  status := 6
  code := 0
  postedAt := none
  openRun := 0
  fault := false

/-- The survey port after reset. -/
def SurveyState.init : SurveyState where
  job := .idle
  passRun := false
  entry := 0
  left := none
  settleOuts := 0
  onPoint := none
  len := 1
  period := 0
  startAt := 0
  mode := 0
  table := []
  stopReq := false
  scanOn := false
  passDue := false
  periodDue := false
  reads := []
  selfReq := false
  selfTemp := 0
  selfAt := 0
  results := []
  sseqNext := 0
  sseqLast := 0
  drop := 0
  temp := 0
  ptA := 0
  ptB := 0
  ptPar := [0, 0, 0, 0]

/-- A bank after reset (14 Table 14.10). -/
def Bank.init : Bank where
  ce := 0
  ue := 0
  used := 0
  loaded := 0
  cols := []
  repairs := []
  lines := []
  columns := []

/-- Memory and integrity after reset (14 Table 14.7). -/
def MemState.init : MemState where
  user := []
  banks := []
  march := none
  marchQueue := []
  repairs := []
  asleep := []
  waking := []
  woken := []
  weakRows := []
  redirect := none
  rowQueue := []
  softRepairs := 0
  hardRepairs := 0
  pendingHard := 0
  spareRows := []
  dramCe := 0
  dramUe := 0
  log := []
  lseq := 0
  logLost := 0
  dose := 0
  fluence := 0
  patrolAt := 0
  doseAt := none
  doseWarned := false
  fluWarned := false
  tmrCnt := 0
  nvmCe := 0
  nvmUe := 0
  conf := []

/-- An engine after reset (15 Table 15.7). -/
def Engine.init : Engine where
  running := false
  restarting := false
  restarts := 0
  recent := []
  region := 0
  ckptNew := 0
  ckpt0 := false
  ckpt1 := false
  handOver := (0, false, false)
  switchedAt := none

/-- An image slot that holds nothing (15 R423). -/
def Slot.init : Slot where
  st := .empty
  header := []
  payload := []
  chunks := []
  since := 0

/-- The settings area of a hub that has never saved anything (15 R422, notes/assumptions/5.md). -/
def Settings.init : Settings where
  bootSlot := 0
  minSec := 0
  hubId := none
  sets := []
  columns := []
  rows := []

/-- Engines and images after reset. -/
def FwState.init : FwState where
  engines := []
  slots := [(0, { Slot.init with st := .valid, header := Config.goldenHeader, payload := Config.goldenPayload })]
  settings := .init
  idRevoked := 0
  runSlot := 0
  prevSlot := 0
  runVer := 0
  runSec := 0
  runDigest := []
  runRevoke := 0
  prevVer := 0
  prevSec := 0
  prevDigest := []
  prevRevoke := 0
  minSec := 0
  revoked := 0
  bootSlot := 0
  probation := false
  fellBack := false
  bootFellBack := false
  fallbackSinceReset := false
  act := none
  chunkOps := []
  loadOrbit := none

end Sys2Proof.Machine
end

