-- ==== Sys2Proof/Machine/RegMap.lean ====
section
/-!
DEFINITION. The complete register map (17 R464 Table 17.1 and the register tables of every chapter): addresses, access
masks and reset values. A register whose fields the hardware sets is listed with the reset value of the fields it
stores; Machine/RegRead.lean puts the live fields in.
-/

namespace Sys2Proof.Machine

open Sys2Proof

/-- How a word stands in its register (17 R463, R469, R470). -/
inductive RegKind where
  | plain
  | loRO
  | hiRO
  | loRW
  | hiRW
  deriving DecidableEq, Repr

/-- Copies of a register reached through a selection: one for each station (05 R163) or mask (06 R192). -/
inductive RegInst where
  | none
  | station
  | mask
  deriving DecidableEq, Repr

/-- A row of the register map: `count` words from `base`, `stride` apart, with the bits of each access type (00 R11). -/
structure RegRow where
  base : Nat
  stride : Nat
  count : Nat
  inst : RegInst
  kind : RegKind
  reset : Nat
  rw : Nat
  w1c : Nat
  w1s : Nat
  wo : Nat
  deriving DecidableEq, Repr

/-- TIME_CTL (02 Table 2.8). -/
abbrev Reg.timeCtl : Nat := 0x01000
/-- TIME_STAT (02 Table 2.8). -/
abbrev Reg.timeStat : Nat := 0x01004
/-- TIME_ORBIT_NEXT (02 Table 2.8). -/
abbrev Reg.timeOrbitNext : Nat := 0x01010
/-- TIME_ORBIT_CUR (02 Table 2.8). -/
abbrev Reg.timeOrbitCur : Nat := 0x01014
/-- TIME_FC_LAT (02 Table 2.8). -/
abbrev Reg.timeFcLat : Nat := 0x01018
/-- TIME_DATUM (02 Table 2.8). -/
abbrev Reg.timeDatum : Nat := 0x01020
/-- TIME_PHASE_NOW (02 Table 2.8). -/
abbrev Reg.timePhaseNow : Nat := 0x01028
/-- TIME_DATUM_LOAD (02 Table 2.8). -/
abbrev Reg.timeDatumLoad : Nat := 0x01030
/-- TIME_XCOUNT (02 Table 2.8). -/
abbrev Reg.timeXcount : Nat := 0x01040
/-- TIME_PLUMB (02 Table 2.8). -/
abbrev Reg.timePlumb : Nat := 0x01048
/-- TIME_MER_S (02 Table 2.8). -/
abbrev Reg.timeMerS : Nat := 0x01050
/-- TIME_MER_PS (02 Table 2.8). -/
abbrev Reg.timeMerPs : Nat := 0x01058
/-- TIME_MER_PERIOD (02 Table 2.8). -/
abbrev Reg.timeMerPeriod : Nat := 0x01060
/-- TIME_STAFF (02 Table 2.8). -/
abbrev Reg.timeStaff : Nat := 0x01068
/-- TIME_STAFF_INC (02 Table 2.8). -/
abbrev Reg.timeStaffInc : Nat := 0x01070
/-- TIME_CAP_CTL (02 Table 2.8). -/
abbrev Reg.timeCapCtl : Nat := 0x01080
/-- TIME_CAP_ register i (02 Table 2.8). -/
abbrev Reg.timeCap (i : Nat) : Nat := 0x01088 + 8 * i
/-- TIME_SERVO_CTL (02 Table 2.8). -/
abbrev Reg.timeServoCtl : Nat := 0x01100
/-- TIME_SERVO_GAIN (02 Table 2.8). -/
abbrev Reg.timeServoGain : Nat := 0x01104
/-- TIME_SERVO_LIM (02 Table 2.8). -/
abbrev Reg.timeServoLim : Nat := 0x01108
/-- TIME_SERVO_THR (02 Table 2.8). -/
abbrev Reg.timeServoThr : Nat := 0x0110C
/-- TIME_PHASE_TGT (02 Table 2.8). -/
abbrev Reg.timePhaseTgt : Nat := 0x01110
/-- TIME_FIBRE_ASYM (02 Table 2.8). -/
abbrev Reg.timeFibreAsym : Nat := 0x01114
/-- TIME_FIBRE_ASYM_B (02 Table 2.8). -/
abbrev Reg.timeFibreAsymB : Nat := 0x01118
/-- TIME_SERVO_STAT (02 Table 2.8). -/
abbrev Reg.timeServoStat : Nat := 0x0111C
/-- TIME_SERVO_ERR (02 Table 2.8). -/
abbrev Reg.timeServoErr : Nat := 0x01120
/-- TIME_RTT (02 Table 2.8). -/
abbrev Reg.timeRtt : Nat := 0x01124
/-- TIME_STAKE_STAT (02 Table 2.8). -/
abbrev Reg.timeStakeStat : Nat := 0x01200
/-- FE_CTL (03 Table 3.9). -/
abbrev Reg.feCtl : Nat := 0x03000
/-- FE_STAT (03 Table 3.9). -/
abbrev Reg.feStat : Nat := 0x03004
/-- FE_CLIP_COUNT (03 Table 3.9). -/
abbrev Reg.feClipCount : Nat := 0x03008
/-- FE_TEST_CTL (03 Table 3.9). -/
abbrev Reg.feTestCtl : Nat := 0x03010
/-- FE_TEST_THR (03 Table 3.9). -/
abbrev Reg.feTestThr : Nat := 0x03014
/-- FE_INJ_SETi (03 Table 3.9). -/
abbrev Reg.feInjSet (i : Nat) : Nat := 0x03040 + 8 * i
/-- FE_INJ_TIMi (03 Table 3.9). -/
abbrev Reg.feInjTim (i : Nat) : Nat := 0x03044 + 8 * i
/-- FE_FAULT_MAPm (03 Table 3.9). -/
abbrev Reg.feFaultMap (i : Nat) : Nat := 0x03100 + 4 * i
/-- FE_CHc (03 Table 3.9). -/
abbrev Reg.feCh (i : Nat) : Nat := 0x03400 + 4 * i
/-- FE_TEST_RESm (03 Table 3.9). -/
abbrev Reg.feTestRes (i : Nat) : Nat := 0x03C00 + 4 * i
/-- CAL_CTL (04 Table 4.6). -/
abbrev Reg.calCtl : Nat := 0x04000
/-- CAL_STAT (04 Table 4.6). -/
abbrev Reg.calStat : Nat := 0x04004
/-- CAL_THR (04 Table 4.6). -/
abbrev Reg.calThr : Nat := 0x04008
/-- CAL_AGE (04 Table 4.6). -/
abbrev Reg.calAge : Nat := 0x0400C
/-- CAL_SHADOW (04 Table 4.6). -/
abbrev Reg.calShadow : Nat := 0x04010
/-- CAL_CMP (04 Table 4.6). -/
abbrev Reg.calCmp : Nat := 0x04014
/-- CAL_RUN (04 Table 4.6). -/
abbrev Reg.calRun : Nat := 0x04018
/-- CAL_FAULT_FIRST (04 Table 4.6). -/
abbrev Reg.calFaultFirst : Nat := 0x04020
/-- CAL_FAULT_HANDOVER (04 Table 4.6). -/
abbrev Reg.calFaultHandover : Nat := 0x04028
/-- CAL_FAULT_INFO (04 Table 4.6). -/
abbrev Reg.calFaultInfo : Nat := 0x04030
/-- CAL_SEL (04 Table 4.6). -/
abbrev Reg.calSel : Nat := 0x04040
/-- CAL_W_PED64 (04 Table 4.6). -/
abbrev Reg.calWPed64 : Nat := 0x04044
/-- CAL_W_PED81 (04 Table 4.6). -/
abbrev Reg.calWPed81 : Nat := 0x04048
/-- CAL_W_RATIO8 (04 Table 4.6). -/
abbrev Reg.calWRatio8 : Nat := 0x0404C
/-- CAL_W_RATIO1 (04 Table 4.6). -/
abbrev Reg.calWRatio1 : Nat := 0x04050
/-- CAL_W_TRIM_EVEN (04 Table 4.6). -/
abbrev Reg.calWTrimEven : Nat := 0x04054
/-- CAL_W_TRIM_ODD (04 Table 4.6). -/
abbrev Reg.calWTrimOdd : Nat := 0x04058
/-- CAL_W_AGE (04 Table 4.6). -/
abbrev Reg.calWAge : Nat := 0x0405C
/-- CAL_STN_STATs (04 Table 4.6). -/
abbrev Reg.calStnStat (i : Nat) : Nat := 0x04100 + 4 * i
/-- CAL_TEMPs (04 Table 4.6). -/
abbrev Reg.calTemp (i : Nat) : Nat := 0x04180 + 4 * i
/-- CAL_SPARE_SKEW_SEL (04 Table 4.6). -/
abbrev Reg.calSpareSkewSel : Nat := 0x041F0
/-- CAL_SPARE_SKEW (04 Table 4.6). -/
abbrev Reg.calSpareSkew : Nat := 0x041F4
/-- CAL_EMPTY_MAPm (04 Table 4.6). -/
abbrev Reg.calEmptyMap (i : Nat) : Nat := 0x04400 + 4 * i
/-- STN_SEL (05 Table 5.3). -/
abbrev Reg.stnSel : Nat := 0x02000
/-- STN_CTL (05 Table 5.3). -/
abbrev Reg.stnCtl : Nat := 0x02004
/-- STN_STAT (05 Table 5.3). -/
abbrev Reg.stnStat : Nat := 0x02008
/-- STN_DET (05 Table 5.3). -/
abbrev Reg.stnDet : Nat := 0x0200C
/-- STN_TMIN (05 Table 5.3). -/
abbrev Reg.stnTmin : Nat := 0x02010
/-- STN_SETTLE_INFO (05 Table 5.3). -/
abbrev Reg.stnSettleInfo : Nat := 0x02014
/-- STN_SETTLE_FIRST (05 Table 5.3). -/
abbrev Reg.stnSettleFirst : Nat := 0x02018
/-- STN_FSET_CFGf (05 Table 5.3). -/
abbrev Reg.stnFsetCfg (i : Nat) : Nat := 0x02100 + 256 * i
/-- STN_Hf_i (05 Table 5.3). -/
abbrev Reg.stnH (f i : Nat) : Nat := 0x02104 + 256 * f + 4 * i
/-- STN_Af_i (05 Table 5.3). -/
abbrev Reg.stnA (f i : Nat) : Nat := 0x02144 + 256 * f + 4 * i
/-- STN_Bf_i (05 Table 5.3). -/
abbrev Reg.stnB (f i : Nat) : Nat := 0x02174 + 256 * f + 4 * i
/-- STN_CHk (05 Table 5.3). -/
abbrev Reg.stnCh (i : Nat) : Nat := 0x02500 + 4 * i
/-- STN_TOFFk (05 Table 5.3). -/
abbrev Reg.stnToff (i : Nat) : Nat := 0x02540 + 4 * i
/-- STN_DETk_MAX (05 Table 5.3). -/
abbrev Reg.stnDetMax (i : Nat) : Nat := 0x02600 + 16 * i
/-- STN_DETk_MIN (05 Table 5.3). -/
abbrev Reg.stnDetMin (i : Nat) : Nat := 0x02604 + 16 * i
/-- STN_DETk_RMS (05 Table 5.3). -/
abbrev Reg.stnDetRms (i : Nat) : Nat := 0x02608 + 16 * i
/-- STN_DETk_ENV (05 Table 5.3). -/
abbrev Reg.stnDetEnv (i : Nat) : Nat := 0x0260C + 16 * i
/-- HIT_CTL (06 Table 6.13). -/
abbrev Reg.hitCtl : Nat := 0x05000
/-- HIT_STAT (06 Table 6.13). -/
abbrev Reg.hitStat : Nat := 0x05004
/-- HIT_NTHR (06 Table 6.13). -/
abbrev Reg.hitNthr : Nat := 0x05008
/-- HIT_GSEQ (06 Table 6.13). -/
abbrev Reg.hitGseq : Nat := 0x0500C
/-- HIT_CHc (06 Table 6.13). -/
abbrev Reg.hitCh (i : Nat) : Nat := 0x05800 + 4 * i
/-- TRG_CTL (06 Table 6.16). -/
abbrev Reg.trgCtl : Nat := 0x06000
/-- TRG_STAT (06 Table 6.16). -/
abbrev Reg.trgStat : Nat := 0x06004
/-- TRG_ACC_LAT (06 Table 6.16). -/
abbrev Reg.trgAccLat : Nat := 0x06008
/-- TRG_WIN (06 Table 6.16). -/
abbrev Reg.trgWin : Nat := 0x0600C
/-- TRG_PRIM (06 Table 6.16). -/
abbrev Reg.trgPrim : Nat := 0x06010
/-- TRG_TW_LATE (06 Table 6.16). -/
abbrev Reg.trgTwLate : Nat := 0x06014
/-- TRG_ACC_SEQ (06 Table 6.16). -/
abbrev Reg.trgAccSeq : Nat := 0x06018
/-- TRG_DT_ACC (06 Table 6.16). -/
abbrev Reg.trgDtAcc : Nat := 0x06040
/-- TRG_DT_ACC_GAP (06 Table 6.16). -/
abbrev Reg.trgDtAccGap : Nat := 0x06048
/-- TRG_DT_BUSY_X (06 Table 6.16). -/
abbrev Reg.trgDtBusyX : Nat := 0x06050
/-- TRG_DT_HIT_GAP_X (06 Table 6.16). -/
abbrev Reg.trgDtHitGapX : Nat := 0x06058
/-- TRG_DT_PROF_GAP_X (06 Table 6.16). -/
abbrev Reg.trgDtProfGapX : Nat := 0x06060
/-- TRG_DT_PRIM_LATE (06 Table 6.16). -/
abbrev Reg.trgDtPrimLate : Nat := 0x06068
/-- TRG_TRV_CTL (06 Table 6.16). -/
abbrev Reg.trgTrvCtl : Nat := 0x06080
/-- TRG_TRV_STAT (06 Table 6.16). -/
abbrev Reg.trgTrvStat : Nat := 0x06084
/-- TRG_TRV_CNTi (06 Table 6.16). -/
abbrev Reg.trgTrvCnt (i : Nat) : Nat := 0x06088 + 4 * i
/-- TRG_CTR_CTL (06 Table 6.16). -/
abbrev Reg.trgCtrCtl : Nat := 0x060A0
/-- TRG_CTR_STAT (06 Table 6.16). -/
abbrev Reg.trgCtrStat : Nat := 0x060A4
/-- TRG_CTR_SEL (06 Table 6.16). -/
abbrev Reg.trgCtrSel : Nat := 0x060A8
/-- TRG_CTR_VIOL (06 Table 6.16). -/
abbrev Reg.trgCtrViol : Nat := 0x060B0
/-- TRG_CTR_VINFO (06 Table 6.16). -/
abbrev Reg.trgCtrVinfo : Nat := 0x060B8
/-- TRG_PROF_EN (06 Table 6.16). -/
abbrev Reg.trgProfEn : Nat := 0x060C0
/-- TRG_PROF_DIV (06 Table 6.16). -/
abbrev Reg.trgProfDiv : Nat := 0x060C4
/-- TRG_TW_CFGs (06 Table 6.16). -/
abbrev Reg.trgTwCfg (i : Nat) : Nat := 0x06100 + 4 * i
/-- TRG_CHMASKm (06 Table 6.16). -/
abbrev Reg.trgChmask (i : Nat) : Nat := 0x06180 + 4 * i
/-- TRG_TRV_STATEi (06 Table 6.16). -/
abbrev Reg.trgTrvState (i : Nat) : Nat := 0x06200 + 4 * i
/-- TRG_CTR_Ww (06 Table 6.16). -/
abbrev Reg.trgCtrW (i : Nat) : Nat := 0x06600 + 4 * i
/-- TRG_TW_Wm (06 Table 6.16). -/
abbrev Reg.trgTwW (i : Nat) : Nat := 0x06C00 + 4 * i
/-- HIS_CTL (07 Table 7.9). -/
abbrev Reg.hisCtl : Nat := 0x07000
/-- HIS_STAT (07 Table 7.9). -/
abbrev Reg.hisStat : Nat := 0x07004
/-- HIS_FUTURE_WAIT (07 Table 7.9). -/
abbrev Reg.hisFutureWait : Nat := 0x07008
/-- HIS_SCRUB_PERIOD (07 Table 7.9). -/
abbrev Reg.hisScrubPeriod : Nat := 0x0700C
/-- HIS_SCRUB_DEBT_LIM (07 Table 7.9). -/
abbrev Reg.hisScrubDebtLim : Nat := 0x07010
/-- HIS_SCRUB_POS (07 Table 7.9). -/
abbrev Reg.hisScrubPos : Nat := 0x07014
/-- HIS_OLDEST (07 Table 7.9). -/
abbrev Reg.hisOldest : Nat := 0x07018
/-- HIS_NEWEST (07 Table 7.9). -/
abbrev Reg.hisNewest : Nat := 0x07020
/-- HIS_DEPTH (07 Table 7.9). -/
abbrev Reg.hisDepth : Nat := 0x07028
/-- HIS_RATIO (07 Table 7.9). -/
abbrev Reg.hisRatio : Nat := 0x0702C
/-- HIS_PIN_FREE (07 Table 7.9). -/
abbrev Reg.hisPinFree : Nat := 0x07030
/-- HIS_PINS (07 Table 7.9). -/
abbrev Reg.hisPins : Nat := 0x07034
/-- HIS_ERR_COUNT (07 Table 7.9). -/
abbrev Reg.hisErrCount : Nat := 0x07038
/-- HIS_EVICT_COUNT (07 Table 7.9). -/
abbrev Reg.hisEvictCount : Nat := 0x0703C
/-- CMP_CTL (08 Table 8.5). -/
abbrev Reg.cmpCtl : Nat := 0x08000
/-- CMP_STAT (08 Table 8.5). -/
abbrev Reg.cmpStat : Nat := 0x08004
/-- CMP_STORED_COUNT (08 Table 8.5). -/
abbrev Reg.cmpStoredCount : Nat := 0x08008
/-- CMP_ERR_COUNT (08 Table 8.5). -/
abbrev Reg.cmpErrCount : Nat := 0x0800C
/-- CMP_CHECK_COUNT (08 Table 8.5). -/
abbrev Reg.cmpCheckCount : Nat := 0x08010
/-- CMP_COPY_DIST (08 Table 8.5). -/
abbrev Reg.cmpCopyDist : Nat := 0x08014
/-- CMP_ERR_X (08 Table 8.5). -/
abbrev Reg.cmpErrX : Nat := 0x08018
/-- CMP_ERR_INFO (08 Table 8.5). -/
abbrev Reg.cmpErrInfo : Nat := 0x08020
/-- LNK_CTL (09 Table 9.11). -/
abbrev Reg.lnkCtl : Nat := 0x09000
/-- LNK_STAT (09 Table 9.11). -/
abbrev Reg.lnkStat : Nat := 0x09004
/-- LNK_UL_EN (09 Table 9.11). -/
abbrev Reg.lnkUlEn : Nat := 0x09008
/-- LNK_UL_UP (09 Table 9.11). -/
abbrev Reg.lnkUlUp : Nat := 0x0900C
/-- LNK_TRAIN_TMR (09 Table 9.11). -/
abbrev Reg.lnkTrainTmr : Nat := 0x09010
/-- LNK_FC_ERR (09 Table 9.11). -/
abbrev Reg.lnkFcErr : Nat := 0x09014
/-- LNK_DL_EYE (09 Table 9.11). -/
abbrev Reg.lnkDlEye : Nat := 0x09018
/-- LNK_DLA_STAT (09 Table 9.11). -/
abbrev Reg.lnkDlaStat : Nat := 0x09020
/-- LNK_DLB_STAT (09 Table 9.11). -/
abbrev Reg.lnkDlbStat : Nat := 0x09024
/-- LNK_DLA_RXDLY (09 Table 9.11). -/
abbrev Reg.lnkDlaRxdly : Nat := 0x09028
/-- LNK_DLB_RXDLY (09 Table 9.11). -/
abbrev Reg.lnkDlbRxdly : Nat := 0x0902C
/-- LNK_BRXP_STAT (09 Table 9.11). -/
abbrev Reg.lnkBrxpStat : Nat := 0x09030
/-- LNK_BRXP_TAP (09 Table 9.11). -/
abbrev Reg.lnkBrxpTap : Nat := 0x09034
/-- LNK_BRXQ_STAT (09 Table 9.11). -/
abbrev Reg.lnkBrxqStat : Nat := 0x09038
/-- LNK_BRXQ_TAP (09 Table 9.11). -/
abbrev Reg.lnkBrxqTap : Nat := 0x0903C
/-- LNK_ULn_TXDLY (09 Table 9.11). -/
abbrev Reg.lnkUlTxdly (i : Nat) : Nat := 0x09100 + 4 * i
/-- LNK_ULn_STAT (09 Table 9.11). -/
abbrev Reg.lnkUlStat (i : Nat) : Nat := 0x09200 + 8 * i
/-- LNK_ULn_TAP (09 Table 9.11). -/
abbrev Reg.lnkUlTap (i : Nat) : Nat := 0x09204 + 8 * i
/-- SPL_CTL (10 Table 10.6). -/
abbrev Reg.splCtl : Nat := 0x0A000
/-- SPL_STAT (10 Table 10.6). -/
abbrev Reg.splStat : Nat := 0x0A004
/-- SPL_TMR (10 Table 10.6). -/
abbrev Reg.splTmr : Nat := 0x0A008
/-- SPL_ARB (10 Table 10.6). -/
abbrev Reg.splArb : Nat := 0x0A00C
/-- SPL_BM (10 Table 10.6). -/
abbrev Reg.splBm : Nat := 0x0A010
/-- SPL_FREE (10 Table 10.6). -/
abbrev Reg.splFree : Nat := 0x0A014
/-- SPL_LANE_RSND (10 Table 10.6). -/
abbrev Reg.splLaneRsnd : Nat := 0x0A018
/-- SPL_Cc_SHARE (10 Table 10.6). -/
abbrev Reg.splShare (i : Nat) : Nat := 0x0A100 + 32 * i
/-- SPL_Cc_OCC (10 Table 10.6). -/
abbrev Reg.splOcc (i : Nat) : Nat := 0x0A104 + 32 * i
/-- SPL_Cc_SEQ (10 Table 10.6). -/
abbrev Reg.splSeq (i : Nat) : Nat := 0x0A108 + 32 * i
/-- SPL_Cc_BM (10 Table 10.6). -/
abbrev Reg.splCBm (i : Nat) : Nat := 0x0A10C + 32 * i
/-- SPL_Cc_CREDIT (10 Table 10.6). -/
abbrev Reg.splCredit (i : Nat) : Nat := 0x0A110 + 32 * i
/-- SPL_Cc_USED (10 Table 10.6). -/
abbrev Reg.splUsed (i : Nat) : Nat := 0x0A114 + 32 * i
/-- SPL_Cc_RSND (10 Table 10.6). -/
abbrev Reg.splRsnd (i : Nat) : Nat := 0x0A118 + 32 * i
/-- SPL_Cc_QSTAT (10 Table 10.6). -/
abbrev Reg.splQstat (i : Nat) : Nat := 0x0A11C + 32 * i
/-- CTL_CTL (11 Table 11.10). -/
abbrev Reg.ctlCtl : Nat := 0x0B000
/-- CTL_STAT (11 Table 11.10). -/
abbrev Reg.ctlStat : Nat := 0x0B004
/-- CTL_INFLIGHT (11 Table 11.10). -/
abbrev Reg.ctlInflight : Nat := 0x0B008
/-- CTL_MSG_CNT (11 Table 11.10). -/
abbrev Reg.ctlMsgCnt : Nat := 0x0B00C
/-- CTL_RD_CNT (11 Table 11.10). -/
abbrev Reg.ctlRdCnt : Nat := 0x0B010
/-- CTL_RINGr_SQ_BASE (11 Table 11.10). -/
abbrev Reg.ctlSqBase (i : Nat) : Nat := 0x0B100 + 64 * i
/-- CTL_RINGr_CQ_BASE (11 Table 11.10). -/
abbrev Reg.ctlCqBase (i : Nat) : Nat := 0x0B108 + 64 * i
/-- CTL_RINGr_CFG (11 Table 11.10). -/
abbrev Reg.ctlCfg (i : Nat) : Nat := 0x0B110 + 64 * i
/-- CTL_RINGr_SQ_PTR (11 Table 11.10). -/
abbrev Reg.ctlSqPtr (i : Nat) : Nat := 0x0B114 + 64 * i
/-- CTL_RINGr_CQ_PTR (11 Table 11.10). -/
abbrev Reg.ctlCqPtr (i : Nat) : Nat := 0x0B118 + 64 * i
/-- CTL_RINGr_RSTAT (11 Table 11.10). -/
abbrev Reg.ctlRstat (i : Nat) : Nat := 0x0B11C + 64 * i
/-- BRX_CFG (12 Table 12.7). -/
abbrev Reg.brxCfg : Nat := 0x0C000
/-- BRX_STAT (12 Table 12.7). -/
abbrev Reg.brxStat : Nat := 0x0C004
/-- BRX_MAP (12 Table 12.7). -/
abbrev Reg.brxMap : Nat := 0x0C008
/-- BRX_LEAVE (12 Table 12.7). -/
abbrev Reg.brxLeave : Nat := 0x0C00C
/-- BRX_LINK_P (12 Table 12.7). -/
abbrev Reg.brxLinkP : Nat := 0x0C010
/-- BRX_LINK_Q (12 Table 12.7). -/
abbrev Reg.brxLinkQ : Nat := 0x0C014
/-- BRX_ASYM_P (12 Table 12.7). -/
abbrev Reg.brxAsymP : Nat := 0x0C018
/-- BRX_ASYM_Q (12 Table 12.7). -/
abbrev Reg.brxAsymQ : Nat := 0x0C01C
/-- BRX_DLY_P (12 Table 12.7). -/
abbrev Reg.brxDlyP : Nat := 0x0C020
/-- BRX_DLY_Q (12 Table 12.7). -/
abbrev Reg.brxDlyQ : Nat := 0x0C024
/-- BRX_PATH_A (12 Table 12.7). -/
abbrev Reg.brxPathA : Nat := 0x0C028
/-- BRX_PATH_B (12 Table 12.7). -/
abbrev Reg.brxPathB : Nat := 0x0C02C
/-- BRX_CLOSURE (12 Table 12.7). -/
abbrev Reg.brxClosure : Nat := 0x0C030
/-- BRX_FAULT (12 Table 12.7). -/
abbrev Reg.brxFault : Nat := 0x0C034
/-- BRX_COUNT (12 Table 12.7). -/
abbrev Reg.brxCount : Nat := 0x0C038
/-- BRX_CLOSURE_ORBIT (12 Table 12.7). -/
abbrev Reg.brxClosureOrbit : Nat := 0x0C040
/-- SRV_CTL (13 Table 13.7). -/
abbrev Reg.srvCtl : Nat := 0x0D000
/-- SRV_STAT (13 Table 13.7). -/
abbrev Reg.srvStat : Nat := 0x0D004
/-- SRV_SCAN (13 Table 13.7). -/
abbrev Reg.srvScan : Nat := 0x0D008
/-- SRV_SELFCAL (13 Table 13.7). -/
abbrev Reg.srvSelfcal : Nat := 0x0D00C
/-- SRV_STALE (13 Table 13.7). -/
abbrev Reg.srvStale : Nat := 0x0D010
/-- SRV_RREF (13 Table 13.7). -/
abbrev Reg.srvRref : Nat := 0x0D014
/-- SRV_DROP (13 Table 13.7). -/
abbrev Reg.srvDrop : Nat := 0x0D018
/-- SRV_SSEQ (13 Table 13.7). -/
abbrev Reg.srvSseq : Nat := 0x0D01C
/-- SRV_TEMP (13 Table 13.7). -/
abbrev Reg.srvTemp : Nat := 0x0D020
/-- SRV_FAULT_MAPm (13 Table 13.7). -/
abbrev Reg.srvFaultMap (i : Nat) : Nat := 0x0D024 + 4 * i
/-- SRV_SCANi (13 Table 13.7). -/
abbrev Reg.srvScanEntry (i : Nat) : Nat := 0x0D100 + 4 * i
/-- SRV_PTk_A (13 Table 13.7). -/
abbrev Reg.srvPtA (i : Nat) : Nat := 0x0D200 + 8 * i
/-- SRV_PTk_B (13 Table 13.7). -/
abbrev Reg.srvPtB (i : Nat) : Nat := 0x0D204 + 8 * i
/-- SRV_PARj_w (13 Table 13.7). -/
abbrev Reg.srvPar (i : Nat) : Nat := 0x0D400 + 4 * i
/-- SRV_RESk (13 Table 13.7). -/
abbrev Reg.srvRes (i : Nat) : Nat := 0x0D500 + 8 * i
/-- SRV_AGEk (13 Table 13.7). -/
abbrev Reg.srvAge (i : Nat) : Nat := 0x0D700 + 4 * i
/-- MEM_CTL (14 Table 14.7). -/
abbrev Reg.memCtl : Nat := 0x0E000
/-- MEM_STAT (14 Table 14.7). -/
abbrev Reg.memStat : Nat := 0x0E004
/-- MEM_PATROL (14 Table 14.7). -/
abbrev Reg.memPatrol : Nat := 0x0E008
/-- MEM_WIN_ADDR (14 Table 14.7). -/
abbrev Reg.memWinAddr : Nat := 0x0E00C
/-- MEM_SLEEP (14 Table 14.7). -/
abbrev Reg.memSleep : Nat := 0x0E010
/-- MEM_SLEEP_STAT (14 Table 14.7). -/
abbrev Reg.memSleepStat : Nat := 0x0E014
/-- MEM_BANK_SEL (14 Table 14.7). -/
abbrev Reg.memBankSel : Nat := 0x0E018
/-- MEM_BANK_STAT (14 Table 14.7). -/
abbrev Reg.memBankStat : Nat := 0x0E01C
/-- MEM_BANK_CE (14 Table 14.7). -/
abbrev Reg.memBankCe : Nat := 0x0E020
/-- MEM_BANK_UE (14 Table 14.7). -/
abbrev Reg.memBankUe : Nat := 0x0E024
/-- MEM_DRAM_CE (14 Table 14.7). -/
abbrev Reg.memDramCe : Nat := 0x0E028
/-- MEM_DRAM_UE (14 Table 14.7). -/
abbrev Reg.memDramUe : Nat := 0x0E030
/-- MEM_PPR (14 Table 14.7). -/
abbrev Reg.memPpr : Nat := 0x0E034
/-- MEM_TMR_CNT (14 Table 14.7). -/
abbrev Reg.memTmrCnt : Nat := 0x0E038
/-- MEM_NVM_CNT (14 Table 14.7). -/
abbrev Reg.memNvmCnt : Nat := 0x0E03C
/-- MEM_LOCKSTEP0 (14 Table 14.7). -/
abbrev Reg.memLockstep0 : Nat := 0x0E040
/-- MEM_LOCKSTEP1 (14 Table 14.7). -/
abbrev Reg.memLockstep1 : Nat := 0x0E044
/-- MEM_LOG_SEQ (14 Table 14.7). -/
abbrev Reg.memLogSeq : Nat := 0x0E048
/-- MEM_LOG_LOST (14 Table 14.7). -/
abbrev Reg.memLogLost : Nat := 0x0E04C
/-- MEM_DOSE (14 Table 14.7). -/
abbrev Reg.memDose : Nat := 0x0E050
/-- MEM_FLUENCE (14 Table 14.7). -/
abbrev Reg.memFluence : Nat := 0x0E054
/-- MEM_DOSE_WARN (14 Table 14.7). -/
abbrev Reg.memDoseWarn : Nat := 0x0E058
/-- MEM_CONFm (14 Table 14.7). -/
abbrev Reg.memConf (i : Nat) : Nat := 0x0E100 + 4 * i
/-- MEM_WIN_PLAIN (14 Table 14.7). -/
abbrev Reg.memWinPlain (i : Nat) : Nat := 0x0E400 + 4 * i
/-- MEM_WIN_SET (14 Table 14.7). -/
abbrev Reg.memWinSet (i : Nat) : Nat := 0x0E800 + 4 * i
/-- MEM_WIN_CLR (14 Table 14.7). -/
abbrev Reg.memWinClr (i : Nat) : Nat := 0x0EC00 + 4 * i
/-- ENG_STAT (15 Table 15.7). -/
abbrev Reg.engStat : Nat := 0x0F000
/-- ENG_LOADk (15 Table 15.7). -/
abbrev Reg.engLoad (i : Nat) : Nat := 0x0F100 + 4 * i
/-- FW_STAT (15 Table 15.7). -/
abbrev Reg.fwStat : Nat := 0x10000
/-- FW_RUN_VER (15 Table 15.7). -/
abbrev Reg.fwRunVer : Nat := 0x10004
/-- FW_RUN_SEC (15 Table 15.7). -/
abbrev Reg.fwRunSec : Nat := 0x10008
/-- FW_MIN_SEC (15 Table 15.7). -/
abbrev Reg.fwMinSec : Nat := 0x1000C
/-- FW_SLOTi (15 Table 15.7). -/
abbrev Reg.fwSlot (i : Nat) : Nat := 0x10010 + 4 * i
/-- FW_ACT_TARGET (15 Table 15.7). -/
abbrev Reg.fwActTarget : Nat := 0x10020
/-- ID_PART (15 Table 15.7). -/
abbrev Reg.idPart : Nat := 0x11000
/-- ID_SERIAL (15 Table 15.7). -/
abbrev Reg.idSerial : Nat := 0x11008
/-- ID_HUB_ID (15 Table 15.7). -/
abbrev Reg.idHubId : Nat := 0x11010
/-- ID_PUBKEYw (15 Table 15.7). -/
abbrev Reg.idPubkey (i : Nat) : Nat := 0x11020 + 4 * i
/-- ID_KEYS (15 Table 15.7). -/
abbrev Reg.idKeys : Nat := 0x11040
/-- PWR_STAT (16 Table 16.6). -/
abbrev Reg.pwrStat : Nat := 0x12000
/-- PWR_RESET_CAUSE (16 Table 16.6). -/
abbrev Reg.pwrResetCause : Nat := 0x12004
/-- PWR_SOFT_RESET (16 Table 16.6). -/
abbrev Reg.pwrSoftReset : Nat := 0x12008
/-- PWR_STARTUP (16 Table 16.6). -/
abbrev Reg.pwrStartup : Nat := 0x1200C
/-- PWR_RAIL_OK (16 Table 16.6). -/
abbrev Reg.pwrRailOk : Nat := 0x12010
/-- PWR_DROOP_CFG (16 Table 16.6). -/
abbrev Reg.pwrDroopCfg : Nat := 0x12014
/-- PWR_PLL_STAT (16 Table 16.6). -/
abbrev Reg.pwrPllStat : Nat := 0x12018
/-- PWR_RAILk_V (16 Table 16.6). -/
abbrev Reg.pwrRailV (i : Nat) : Nat := 0x12040 + 4 * i
/-- TOP_ID (17 Table 17.4). -/
abbrev Reg.topId : Nat := 0x00000
/-- TOP_SCRATCH (17 Table 17.4). -/
abbrev Reg.topScratch : Nat := 0x00004
/-- TOP_PATH_STAT (17 Table 17.4). -/
abbrev Reg.topPathStat : Nat := 0x00008
/-- TOP_LOCK (17 Table 17.4). -/
abbrev Reg.topLock : Nat := 0x00010
/-- TOP_UNLOCK (17 Table 17.4). -/
abbrev Reg.topUnlock : Nat := 0x00014
/-- TOP_ALERT_SRC (17 Table 17.4). -/
abbrev Reg.topAlertSrc : Nat := 0x00020
/-- TOP_ALERT_MASK (17 Table 17.4). -/
abbrev Reg.topAlertMask : Nat := 0x00024
/-- TOP_DROOP_STAT (17 Table 17.4). -/
abbrev Reg.topDroopStat : Nat := 0x00040

/-- Page 0x00, TOP_. -/
def regRowsTop : List RegRow :=
  [ ⟨0x00000, 0, 1, .none, .plain, 0x5120101, 0x0, 0x0, 0x0, 0x0⟩,
    ⟨0x00004, 0, 1, .none, .plain, 0x0, 0xFFFFFFFF, 0x0, 0x0, 0x0⟩,
    ⟨0x00008, 0, 1, .none, .plain, 0x0, 0x0, 0x1F, 0x0, 0x0⟩,
    ⟨0x00010, 0, 1, .none, .plain, 0x0, 0x7FFFE, 0x0, 0x0, 0x0⟩,
    ⟨0x00014, 0, 1, .none, .plain, 0x0, 0x0, 0x0, 0x0, 0xFFFF⟩,
    ⟨0x00020, 0, 1, .none, .plain, 0x0, 0x0, 0x0, 0x0, 0x0⟩,
    ⟨0x00024, 0, 1, .none, .plain, 0x7FFFF, 0x7FFFF, 0x0, 0x0, 0x0⟩,
    ⟨0x00040, 0, 1, .none, .plain, 0x0, 0x0, 0x6, 0x0, 0x0⟩ ]

/-- Page 0x01, TIME_, part 0. -/
def regRowsTime0 : List RegRow :=
  [ ⟨0x01000, 0, 1, .none, .plain, 0xC, 0xF, 0x0, 0x0, 0x0⟩,
    ⟨0x01004, 0, 1, .none, .plain, 0x0, 0x0, 0x1F00, 0x0, 0x0⟩,
    ⟨0x01010, 0, 1, .none, .plain, 0x700AF0, 0x3FF1FFF, 0x0, 0x0, 0x0⟩,
    ⟨0x01014, 0, 1, .none, .plain, 0x700AF0, 0x0, 0x0, 0x0, 0x0⟩,
    ⟨0x01018, 0, 1, .none, .plain, 0x40, 0xFF, 0x0, 0x0, 0x0⟩,
    ⟨0x01020, 0, 1, .none, .loRO, 0x0, 0x0, 0x0, 0x0, 0x0⟩,
    ⟨0x01024, 0, 1, .none, .hiRO, 0x0, 0x0, 0x0, 0x0, 0x0⟩,
    ⟨0x01028, 0, 1, .none, .plain, 0x0, 0x0, 0x0, 0x0, 0x0⟩,
    ⟨0x01030, 0, 1, .none, .loRW, 0x0, 0xFFF01FFF, 0x0, 0x0, 0x0⟩,
    ⟨0x01034, 0, 1, .none, .hiRW, 0x0, 0xFFFFFFFF, 0x0, 0x0, 0x0⟩,
    ⟨0x01040, 0, 1, .none, .loRO, 0x0, 0x0, 0x0, 0x0, 0x0⟩,
    ⟨0x01044, 0, 1, .none, .hiRO, 0x0, 0x0, 0x0, 0x0, 0x0⟩,
    ⟨0x01048, 0, 1, .none, .loRO, 0x0, 0x0, 0x0, 0x0, 0x0⟩,
    ⟨0x0104C, 0, 1, .none, .hiRO, 0x0, 0x0, 0x0, 0x0, 0x0⟩,
    ⟨0x01050, 0, 1, .none, .loRO, 0x0, 0x0, 0x0, 0x0, 0x0⟩,
    ⟨0x01054, 0, 1, .none, .hiRO, 0x0, 0x0, 0x0, 0x0, 0x0⟩,
    ⟨0x01058, 0, 1, .none, .loRO, 0x0, 0x0, 0x0, 0x0, 0x0⟩,
    ⟨0x0105C, 0, 1, .none, .hiRO, 0x0, 0x0, 0x0, 0x0, 0x0⟩,
    ⟨0x01060, 0, 1, .none, .loRW, 0xA8000000, 0xFFFFFFFF, 0x0, 0x0, 0x0⟩,
    ⟨0x01064, 0, 1, .none, .hiRW, 0x61, 0xFF, 0x0, 0x0, 0x0⟩,
    ⟨0x01068, 0, 1, .none, .loRO, 0x0, 0x0, 0x0, 0x0, 0x0⟩,
    ⟨0x0106C, 0, 1, .none, .hiRO, 0x0, 0x0, 0x0, 0x0, 0x0⟩,
    ⟨0x01070, 0, 1, .none, .loRW, 0x0, 0xFFFFFFFF, 0x0, 0x0, 0x0⟩,
    ⟨0x01074, 0, 1, .none, .hiRW, 0x0, 0xFFFFFFFF, 0x0, 0x0, 0x0⟩,
    ⟨0x01080, 0, 1, .none, .plain, 0x0, 0x0, 0x0, 0x0, 0x1⟩ ]

/-- Page 0x01, TIME_, part 1. -/
def regRowsTime1 : List RegRow :=
  [ ⟨0x01088, 8, 7, .none, .loRO, 0x0, 0x0, 0x0, 0x0, 0x0⟩,
    ⟨0x0108C, 8, 7, .none, .hiRO, 0x0, 0x0, 0x0, 0x0, 0x0⟩,
    ⟨0x01100, 0, 1, .none, .plain, 0x1041013, 0xFFFFFFFF, 0x0, 0x0, 0x0⟩,
    ⟨0x01104, 0, 1, .none, .plain, 0x40008000, 0xFFFFFFFF, 0x0, 0x0, 0x0⟩,
    ⟨0x01108, 0, 1, .none, .plain, 0x7D00010, 0xFFFFFFFF, 0x0, 0x0, 0x0⟩,
    ⟨0x0110C, 0, 1, .none, .plain, 0x280004, 0xFFFFFFFF, 0x0, 0x0, 0x0⟩,
    ⟨0x01110, 0, 1, .none, .plain, 0x0, 0x1FFFF, 0x0, 0x0, 0x0⟩,
    ⟨0x01114, 0, 1, .none, .plain, 0x0, 0xFFFFFFFF, 0x0, 0x0, 0x0⟩,
    ⟨0x01118, 0, 1, .none, .plain, 0x0, 0xFFFFFFFF, 0x0, 0x0, 0x0⟩,
    ⟨0x0111C, 0, 1, .none, .plain, 0x1, 0x0, 0x0, 0x0, 0x0⟩,
    ⟨0x01120, 0, 1, .none, .plain, 0x0, 0x0, 0x0, 0x0, 0x0⟩,
    ⟨0x01124, 0, 1, .none, .plain, 0x0, 0x0, 0x0, 0x0, 0x0⟩,
    ⟨0x01200, 0, 1, .none, .plain, 0x0, 0x0, 0x0, 0x0, 0x0⟩ ]

/-- Page 0x01, TIME_. -/
def regRowsTime : List RegRow :=
  regRowsTime0 ++ regRowsTime1

/-- Page 0x02, STN_, part 0. -/
def regRowsStn0 : List RegRow :=
  [ ⟨0x02000, 0, 1, .none, .plain, 0x0, 0x1F, 0x0, 0x0, 0x0⟩,
    ⟨0x02004, 0, 1, .station, .plain, 0x0, 0x0, 0x0, 0x0, 0x1⟩,
    ⟨0x02008, 0, 1, .station, .plain, 0x0, 0x0, 0x6, 0x0, 0x0⟩,
    ⟨0x0200C, 0, 1, .station, .plain, 0x406, 0xF0F, 0x0, 0x0, 0x0⟩,
    ⟨0x02010, 0, 1, .station, .plain, 0x40, 0xFFFFF, 0x0, 0x0, 0x0⟩,
    ⟨0x02014, 0, 1, .station, .plain, 0x0, 0x0, 0x0, 0x0, 0x0⟩,
    ⟨0x02018, 0, 1, .station, .loRO, 0x0, 0x0, 0x0, 0x0, 0x0⟩,
    ⟨0x0201C, 0, 1, .station, .hiRO, 0x0, 0x0, 0x0, 0x0, 0x0⟩,
    ⟨0x02100, 256, 4, .station, .plain, 0x20100000, 0xFFFFF773, 0x0, 0x0, 0x0⟩,
    ⟨0x02104, 256, 4, .station, .plain, 0x10000, 0x3FFFF, 0x0, 0x0, 0x0⟩,
    ⟨0x02108, 4, 15, .station, .plain, 0x0, 0x3FFFF, 0x0, 0x0, 0x0⟩,
    ⟨0x02208, 4, 15, .station, .plain, 0x0, 0x3FFFF, 0x0, 0x0, 0x0⟩,
    ⟨0x02308, 4, 15, .station, .plain, 0x0, 0x3FFFF, 0x0, 0x0, 0x0⟩,
    ⟨0x02408, 4, 15, .station, .plain, 0x0, 0x3FFFF, 0x0, 0x0, 0x0⟩,
    ⟨0x02144, 256, 4, .station, .plain, 0x10000, 0x3FFFF, 0x0, 0x0, 0x0⟩,
    ⟨0x02148, 4, 11, .station, .plain, 0x0, 0x3FFFF, 0x0, 0x0, 0x0⟩,
    ⟨0x02248, 4, 11, .station, .plain, 0x0, 0x3FFFF, 0x0, 0x0, 0x0⟩,
    ⟨0x02348, 4, 11, .station, .plain, 0x0, 0x3FFFF, 0x0, 0x0, 0x0⟩,
    ⟨0x02448, 4, 11, .station, .plain, 0x0, 0x3FFFF, 0x0, 0x0, 0x0⟩,
    ⟨0x02174, 4, 12, .station, .plain, 0x0, 0x3FFFF, 0x0, 0x0, 0x0⟩,
    ⟨0x02274, 4, 12, .station, .plain, 0x0, 0x3FFFF, 0x0, 0x0, 0x0⟩,
    ⟨0x02374, 4, 12, .station, .plain, 0x0, 0x3FFFF, 0x0, 0x0, 0x0⟩,
    ⟨0x02474, 4, 12, .station, .plain, 0x0, 0x3FFFF, 0x0, 0x0, 0x0⟩,
    ⟨0x02500, 4, 16, .station, .plain, 0x0, 0xF, 0x0, 0x0, 0x0⟩,
    ⟨0x02540, 4, 16, .station, .plain, 0x0, 0xFFFF, 0x0, 0x0, 0x0⟩ ]

/-- Page 0x02, STN_, part 1. -/
def regRowsStn1 : List RegRow :=
  [ ⟨0x02600, 16, 16, .station, .plain, 0x0, 0x0, 0x0, 0x0, 0x0⟩,
    ⟨0x02604, 16, 16, .station, .plain, 0x0, 0x0, 0x0, 0x0, 0x0⟩,
    ⟨0x02608, 16, 16, .station, .plain, 0x0, 0x0, 0x0, 0x0, 0x0⟩,
    ⟨0x0260C, 16, 16, .station, .plain, 0x0, 0x0, 0x0, 0x0, 0x0⟩ ]

/-- Page 0x02, STN_. -/
def regRowsStn : List RegRow :=
  regRowsStn0 ++ regRowsStn1

/-- Page 0x03, FE_. -/
def regRowsFe : List RegRow :=
  [ ⟨0x03000, 0, 1, .none, .plain, 0x100801, 0xFF7F01, 0x0, 0x0, 0x0⟩,
    ⟨0x03004, 0, 1, .none, .plain, 0x0, 0x0, 0xE, 0x0, 0x0⟩,
    ⟨0x03008, 0, 1, .none, .plain, 0x0, 0x0, 0x0, 0x0, 0x0⟩,
    ⟨0x03010, 0, 1, .none, .plain, 0x1040401, 0x3FFFF01, 0x0, 0x0, 0x0⟩,
    ⟨0x03014, 0, 1, .none, .plain, 0xA0000A, 0xFFF0FFF, 0x0, 0x0, 0x0⟩,
    ⟨0x03040, 8, 4, .none, .plain, 0x1000000, 0xFF03FFFF, 0x0, 0x0, 0x0⟩,
    ⟨0x03044, 8, 4, .none, .plain, 0x0, 0xFFF, 0x0, 0x0, 0x0⟩,
    ⟨0x03100, 4, 16, .none, .plain, 0x0, 0x0, 0x0, 0x0, 0x0⟩,
    ⟨0x03400, 4, 512, .none, .plain, 0x800083, 0xFFF7FF, 0x0, 0x0, 0x0⟩,
    ⟨0x03C00, 4, 256, .none, .plain, 0x60006000, 0x0, 0x0, 0x0, 0x0⟩ ]

/-- Page 0x04, CAL_. -/
def regRowsCal : List RegRow :=
  [ ⟨0x04000, 0, 1, .none, .plain, 0x401, 0xFF03, 0x0, 0x0, 0x4⟩,
    ⟨0x04004, 0, 1, .none, .plain, 0x2, 0x0, 0x3D, 0x0, 0x0⟩,
    ⟨0x04008, 0, 1, .none, .plain, 0x500020, 0xFFFFFFFF, 0x0, 0x0, 0x0⟩,
    ⟨0x0400C, 0, 1, .none, .plain, 0x10000010, 0xFFFF00FF, 0x0, 0x0, 0x0⟩,
    ⟨0x04010, 0, 1, .none, .plain, 0x10002018, 0xFFFFFFFF, 0x0, 0x0, 0x0⟩,
    ⟨0x04014, 0, 1, .none, .plain, 0x100010, 0xFFFFFFFF, 0x0, 0x0, 0x0⟩,
    ⟨0x04018, 0, 1, .none, .plain, 0x0, 0x0, 0x0, 0xFFFFFFFF, 0x0⟩,
    ⟨0x04020, 0, 1, .none, .loRO, 0x0, 0x0, 0x0, 0x0, 0x0⟩,
    ⟨0x04024, 0, 1, .none, .hiRO, 0x0, 0x0, 0x0, 0x0, 0x0⟩,
    ⟨0x04028, 0, 1, .none, .loRO, 0x0, 0x0, 0x0, 0x0, 0x0⟩,
    ⟨0x0402C, 0, 1, .none, .hiRO, 0x0, 0x0, 0x0, 0x0, 0x0⟩,
    ⟨0x04030, 0, 1, .none, .plain, 0x0, 0x0, 0x0, 0x0, 0x0⟩,
    ⟨0x04040, 0, 1, .none, .plain, 0x0, 0x1FF, 0x0, 0x0, 0x0⟩,
    ⟨0x04044, 0, 1, .none, .plain, 0x0, 0x0, 0x0, 0x0, 0x0⟩,
    ⟨0x04048, 0, 1, .none, .plain, 0x0, 0x0, 0x0, 0x0, 0x0⟩,
    ⟨0x0404C, 0, 1, .none, .plain, 0x80000, 0x0, 0x0, 0x0, 0x0⟩,
    ⟨0x04050, 0, 1, .none, .plain, 0x400000, 0x0, 0x0, 0x0, 0x0⟩,
    ⟨0x04054, 0, 1, .none, .plain, 0x0, 0x0, 0x0, 0x0, 0x0⟩,
    ⟨0x04058, 0, 1, .none, .plain, 0x0, 0x0, 0x0, 0x0, 0x0⟩,
    ⟨0x0405C, 0, 1, .none, .plain, 0xFFFF0001, 0x0, 0x0, 0x0, 0x0⟩,
    ⟨0x04100, 4, 32, .none, .plain, 0x1F8000, 0x0, 0x0, 0x0, 0x0⟩,
    ⟨0x04180, 4, 28, .none, .plain, 0x0, 0x0, 0x0, 0x0, 0x0⟩,
    ⟨0x041F8, 4, 2, .none, .plain, 0x0, 0x0, 0x0, 0x0, 0x0⟩,
    ⟨0x041F0, 0, 1, .none, .plain, 0x0, 0x1F, 0x0, 0x0, 0x0⟩,
    ⟨0x041F4, 0, 1, .none, .plain, 0x0, 0x0, 0x0, 0x0, 0x0⟩,
    ⟨0x04400, 4, 256, .none, .plain, 0x0, 0xFFFFFFFF, 0x0, 0x0, 0x0⟩ ]

/-- Page 0x05, HIT_. -/
def regRowsHit : List RegRow :=
  [ ⟨0x05000, 0, 1, .none, .plain, 0x4, 0x7, 0x0, 0x0, 0x0⟩,
    ⟨0x05004, 0, 1, .none, .plain, 0x0, 0x0, 0x6, 0x0, 0x0⟩,
    ⟨0x05008, 0, 1, .none, .plain, 0x80000, 0xFFFFF, 0x0, 0x0, 0x0⟩,
    ⟨0x0500C, 0, 1, .none, .plain, 0x0, 0x0, 0x0, 0x0, 0x0⟩,
    ⟨0x05800, 4, 512, .none, .plain, 0x0, 0xFFFFFFFF, 0x0, 0x0, 0x0⟩ ]

/-- Page 0x06, TRG_, part 0. -/
def regRowsTrg0 : List RegRow :=
  [ ⟨0x06000, 0, 1, .none, .plain, 0xC000, 0xFF03, 0x0, 0x0, 0x0⟩,
    ⟨0x06004, 0, 1, .none, .plain, 0x0, 0x0, 0xF800, 0x0, 0x0⟩,
    ⟨0x06008, 0, 1, .none, .plain, 0x1F4, 0xFFFFF, 0x0, 0x0, 0x0⟩,
    ⟨0x0600C, 0, 1, .none, .plain, 0x1A52, 0x3FFF, 0x0, 0x0, 0x0⟩,
    ⟨0x06010, 0, 1, .none, .plain, 0x18, 0x3F, 0x0, 0x0, 0x0⟩,
    ⟨0x06014, 0, 1, .none, .plain, 0x0, 0x0, 0x0, 0x0, 0x0⟩,
    ⟨0x06018, 0, 1, .none, .plain, 0x0, 0x0, 0x0, 0x0, 0x0⟩,
    ⟨0x06040, 0, 1, .none, .loRO, 0x0, 0x0, 0x0, 0x0, 0x0⟩,
    ⟨0x06044, 0, 1, .none, .hiRO, 0x0, 0x0, 0x0, 0x0, 0x0⟩,
    ⟨0x06048, 0, 1, .none, .loRO, 0x0, 0x0, 0x0, 0x0, 0x0⟩,
    ⟨0x0604C, 0, 1, .none, .hiRO, 0x0, 0x0, 0x0, 0x0, 0x0⟩,
    ⟨0x06050, 0, 1, .none, .loRO, 0x0, 0x0, 0x0, 0x0, 0x0⟩,
    ⟨0x06054, 0, 1, .none, .hiRO, 0x0, 0x0, 0x0, 0x0, 0x0⟩,
    ⟨0x06058, 0, 1, .none, .loRO, 0x0, 0x0, 0x0, 0x0, 0x0⟩,
    ⟨0x0605C, 0, 1, .none, .hiRO, 0x0, 0x0, 0x0, 0x0, 0x0⟩,
    ⟨0x06060, 0, 1, .none, .loRO, 0x0, 0x0, 0x0, 0x0, 0x0⟩,
    ⟨0x06064, 0, 1, .none, .hiRO, 0x0, 0x0, 0x0, 0x0, 0x0⟩,
    ⟨0x06068, 0, 1, .none, .loRO, 0x0, 0x0, 0x0, 0x0, 0x0⟩,
    ⟨0x0606C, 0, 1, .none, .hiRO, 0x0, 0x0, 0x0, 0x0, 0x0⟩,
    ⟨0x06080, 0, 1, .none, .plain, 0x0, 0x3F, 0x0, 0x0, 0x300⟩,
    ⟨0x06084, 0, 1, .none, .plain, 0x0, 0x0, 0x200, 0x0, 0x0⟩,
    ⟨0x06088, 4, 4, .none, .plain, 0x0, 0x0, 0x0, 0x0, 0x0⟩,
    ⟨0x060A0, 0, 1, .none, .plain, 0x0, 0xFF, 0x0, 0x0, 0x0⟩,
    ⟨0x060A4, 0, 1, .none, .plain, 0x0, 0x0, 0x0, 0x0, 0x0⟩,
    ⟨0x060A8, 0, 1, .none, .plain, 0x0, 0x7, 0x0, 0x0, 0x0⟩ ]

/-- Page 0x06, TRG_, part 1. -/
def regRowsTrg1 : List RegRow :=
  [ ⟨0x060B0, 0, 1, .none, .loRO, 0x0, 0x0, 0x0, 0x0, 0x0⟩,
    ⟨0x060B4, 0, 1, .none, .hiRO, 0x0, 0x0, 0x0, 0x0, 0x0⟩,
    ⟨0x060B8, 0, 1, .none, .plain, 0x0, 0x0, 0x0, 0x0, 0x0⟩,
    ⟨0x060C0, 0, 1, .none, .plain, 0x0, 0xFFFFFFFF, 0x0, 0x0, 0x0⟩,
    ⟨0x060C4, 0, 1, .none, .plain, 0x1, 0xFFFF, 0x0, 0x0, 0x0⟩,
    ⟨0x06100, 4, 32, .none, .plain, 0xFFFF0006, 0xFFFF000F, 0x0, 0x0, 0x0⟩,
    ⟨0x06180, 4, 16, .none, .plain, 0x0, 0xFFFFFFFF, 0x0, 0x0, 0x0⟩,
    ⟨0x06200, 16, 64, .none, .plain, 0x0, 0xFFFFFFFF, 0x0, 0x0, 0x0⟩,
    ⟨0x06204, 16, 64, .none, .plain, 0x0, 0xFFFF, 0x0, 0x0, 0x0⟩,
    ⟨0x06208, 16, 64, .none, .plain, 0x0, 0xFFFFFFFF, 0x0, 0x0, 0x0⟩,
    ⟨0x0620C, 16, 64, .none, .plain, 0x0, 0xFFFFFFFF, 0x0, 0x0, 0x0⟩,
    ⟨0x06600, 0, 1, .mask, .plain, 0x0, 0xFFFF01FF, 0x0, 0x0, 0x0⟩,
    ⟨0x06604, 0, 1, .mask, .plain, 0x0, 0xFFFFFFFF, 0x0, 0x0, 0x0⟩,
    ⟨0x06608, 0, 1, .mask, .plain, 0x0, 0x7FF, 0x0, 0x0, 0x0⟩,
    ⟨0x0660C, 4, 5, .mask, .plain, 0x0, 0x0, 0x0, 0x0, 0x0⟩,
    ⟨0x06620, 4, 128, .mask, .plain, 0x0, 0xFFFFFFFF, 0x0, 0x0, 0x0⟩,
    ⟨0x06C00, 4, 256, .none, .plain, 0x40004000, 0xFFFFFFFF, 0x0, 0x0, 0x0⟩ ]

/-- Page 0x06, TRG_. -/
def regRowsTrg : List RegRow :=
  regRowsTrg0 ++ regRowsTrg1

/-- Page 0x07, HIS_. -/
def regRowsHis : List RegRow :=
  [ ⟨0x07000, 0, 1, .none, .plain, 0x101, 0x1F1, 0x0, 0x0, 0x0⟩,
    ⟨0x07004, 0, 1, .none, .plain, 0x0, 0x0, 0x3C, 0x0, 0x0⟩,
    ⟨0x07008, 0, 1, .none, .plain, 0x10000, 0xFFFFFF, 0x0, 0x0, 0x0⟩,
    ⟨0x0700C, 0, 1, .none, .plain, 0x3C, 0xFFF, 0x0, 0x0, 0x0⟩,
    ⟨0x07010, 0, 1, .none, .plain, 0x20, 0x1FF, 0x0, 0x0, 0x0⟩,
    ⟨0x07014, 0, 1, .none, .plain, 0x0, 0x0, 0x0, 0x0, 0x0⟩,
    ⟨0x07018, 0, 1, .none, .loRO, 0x0, 0x0, 0x0, 0x0, 0x0⟩,
    ⟨0x0701C, 0, 1, .none, .hiRO, 0x0, 0x0, 0x0, 0x0, 0x0⟩,
    ⟨0x07020, 0, 1, .none, .loRO, 0x0, 0x0, 0x0, 0x0, 0x0⟩,
    ⟨0x07024, 0, 1, .none, .hiRO, 0x0, 0x0, 0x0, 0x0, 0x0⟩,
    ⟨0x07028, 0, 1, .none, .plain, 0x0, 0x0, 0x0, 0x0, 0x0⟩,
    ⟨0x0702C, 0, 1, .none, .plain, 0x100, 0x0, 0x0, 0x0, 0x0⟩,
    ⟨0x07030, 0, 1, .none, .plain, 0x1F000, 0x0, 0x0, 0x0, 0x0⟩,
    ⟨0x07034, 0, 1, .none, .plain, 0x0, 0x0, 0x0, 0x0, 0x0⟩,
    ⟨0x07038, 0, 1, .none, .plain, 0x0, 0x0, 0x0, 0x0, 0x0⟩,
    ⟨0x0703C, 0, 1, .none, .plain, 0x0, 0x0, 0x0, 0x0, 0x0⟩ ]

/-- Page 0x08, CMP_. -/
def regRowsCmp : List RegRow :=
  [ ⟨0x08000, 0, 1, .none, .plain, 0x1E, 0x1F, 0x0, 0x0, 0x0⟩,
    ⟨0x08004, 0, 1, .none, .plain, 0x0, 0x0, 0x3, 0x0, 0x0⟩,
    ⟨0x08008, 0, 1, .none, .plain, 0x0, 0x0, 0x0, 0x0, 0x0⟩,
    ⟨0x0800C, 0, 1, .none, .plain, 0x0, 0x0, 0x0, 0x0, 0x0⟩,
    ⟨0x08010, 0, 1, .none, .plain, 0x0, 0x0, 0x0, 0x0, 0x0⟩,
    ⟨0x08014, 0, 1, .none, .plain, 0x0, 0x3FF03FF, 0x0, 0x0, 0x0⟩,
    ⟨0x08018, 0, 1, .none, .loRO, 0x0, 0x0, 0x0, 0x0, 0x0⟩,
    ⟨0x0801C, 0, 1, .none, .hiRO, 0x0, 0x0, 0x0, 0x0, 0x0⟩,
    ⟨0x08020, 0, 1, .none, .plain, 0x0, 0x0, 0x0, 0x0, 0x0⟩ ]

/-- Page 0x09, LNK_. -/
def regRowsLnk : List RegRow :=
  [ ⟨0x09000, 0, 1, .none, .plain, 0x7, 0x1F, 0x0, 0x0, 0x0⟩,
    ⟨0x09004, 0, 1, .none, .plain, 0x0, 0x0, 0x2F0, 0x0, 0x0⟩,
    ⟨0x09008, 0, 1, .none, .plain, 0xFFFFFFFF, 0xFFFFFFFF, 0x0, 0x0, 0x0⟩,
    ⟨0x0900C, 0, 1, .none, .plain, 0x0, 0x0, 0x0, 0x0, 0x0⟩,
    ⟨0x09010, 0, 1, .none, .plain, 0x1000010, 0xFFFF00FF, 0x0, 0x0, 0x0⟩,
    ⟨0x09014, 0, 1, .none, .plain, 0x0, 0x0, 0x0, 0x0, 0x0⟩,
    ⟨0x09018, 0, 1, .none, .plain, 0x1E, 0xFF, 0x0, 0x0, 0x0⟩,
    ⟨0x09020, 0, 1, .none, .plain, 0x0, 0x0, 0x0, 0x0, 0x0⟩,
    ⟨0x09024, 0, 1, .none, .plain, 0x0, 0x0, 0x0, 0x0, 0x0⟩,
    ⟨0x09028, 0, 1, .none, .plain, 0x0, 0x0, 0x0, 0x0, 0x0⟩,
    ⟨0x0902C, 0, 1, .none, .plain, 0x0, 0x0, 0x0, 0x0, 0x0⟩,
    ⟨0x09030, 0, 1, .none, .plain, 0x0, 0x0, 0x0, 0x0, 0x0⟩,
    ⟨0x09034, 0, 1, .none, .plain, 0x404, 0x0, 0x0, 0x0, 0x0⟩,
    ⟨0x09038, 0, 1, .none, .plain, 0x0, 0x0, 0x0, 0x0, 0x0⟩,
    ⟨0x0903C, 0, 1, .none, .plain, 0x404, 0x0, 0x0, 0x0, 0x0⟩,
    ⟨0x09100, 4, 32, .none, .plain, 0x0, 0x0, 0x0, 0x0, 0x0⟩,
    ⟨0x09200, 8, 32, .none, .plain, 0x0, 0x0, 0x0, 0x0, 0x0⟩,
    ⟨0x09204, 8, 32, .none, .plain, 0x404, 0x0, 0x0, 0x0, 0x0⟩ ]

/-- Page 0x0A, SPL_. -/
def regRowsSpl : List RegRow :=
  [ ⟨0x0A000, 0, 1, .none, .plain, 0x3, 0x3, 0x0, 0x0, 0x0⟩,
    ⟨0x0A004, 0, 1, .none, .plain, 0x0, 0x0, 0x7C, 0x0, 0x0⟩,
    ⟨0x0A008, 0, 1, .none, .plain, 0x1000020, 0xFFFF00FF, 0x0, 0x0, 0x0⟩,
    ⟨0x0A00C, 0, 1, .none, .plain, 0x208, 0xFFFF, 0x0, 0x0, 0x0⟩,
    ⟨0x0A010, 0, 1, .none, .plain, 0x20, 0xFF, 0x0, 0x0, 0x0⟩,
    ⟨0x0A014, 0, 1, .none, .plain, 0x20000, 0x0, 0x0, 0x0, 0x0⟩,
    ⟨0x0A018, 0, 1, .none, .plain, 0x0, 0x0, 0x0, 0x0, 0x0⟩,
    ⟨0x0A100, 0, 1, .none, .plain, 0x4, 0xFF, 0x0, 0x0, 0x0⟩,
    ⟨0x0A120, 0, 1, .none, .plain, 0x30, 0xFF, 0x0, 0x0, 0x0⟩,
    ⟨0x0A140, 0, 1, .none, .plain, 0x20, 0xFF, 0x0, 0x0, 0x0⟩,
    ⟨0x0A160, 0, 1, .none, .plain, 0x10, 0xFF, 0x0, 0x0, 0x0⟩,
    ⟨0x0A180, 0, 1, .none, .plain, 0x8, 0xFF, 0x0, 0x0, 0x0⟩,
    ⟨0x0A1A0, 0, 1, .none, .plain, 0x2, 0xFF, 0x0, 0x0, 0x0⟩,
    ⟨0x0A1C0, 0, 1, .none, .plain, 0x2, 0xFF, 0x0, 0x0, 0x0⟩,
    ⟨0x0A1E0, 0, 1, .none, .plain, 0x10, 0xFF, 0x0, 0x0, 0x0⟩,
    ⟨0x0A104, 32, 8, .none, .plain, 0x0, 0x0, 0x0, 0x0, 0x0⟩,
    ⟨0x0A108, 32, 8, .none, .plain, 0x0, 0x0, 0x0, 0x0, 0x0⟩,
    ⟨0x0A10C, 32, 8, .none, .plain, 0xFFFFFFFF, 0x0, 0x0, 0x0, 0x0⟩,
    ⟨0x0A110, 32, 8, .none, .plain, 0x0, 0xFFFFFFFF, 0x0, 0x0, 0x0⟩,
    ⟨0x0A114, 32, 8, .none, .plain, 0x0, 0x0, 0x0, 0x0, 0x0⟩,
    ⟨0x0A118, 32, 8, .none, .plain, 0x0, 0x0, 0x0, 0x0, 0x0⟩,
    ⟨0x0A11C, 32, 8, .none, .plain, 0x0, 0x0, 0x20000, 0x0, 0x0⟩ ]

/-- Page 0x0B, CTL_. -/
def regRowsCtl : List RegRow :=
  [ ⟨0x0B000, 0, 1, .none, .plain, 0x400400, 0xFFFF0701, 0x0, 0x0, 0x0⟩,
    ⟨0x0B004, 0, 1, .none, .plain, 0x0, 0x0, 0x1E, 0x0, 0x0⟩,
    ⟨0x0B008, 0, 1, .none, .plain, 0x0, 0x0, 0x0, 0x0, 0x0⟩,
    ⟨0x0B00C, 0, 1, .none, .plain, 0x0, 0x0, 0x0, 0x0, 0x0⟩,
    ⟨0x0B010, 0, 1, .none, .plain, 0x0, 0x0, 0x0, 0x0, 0x0⟩,
    ⟨0x0B100, 64, 32, .none, .loRW, 0x0, 0xFFFFFFC0, 0x0, 0x0, 0x0⟩,
    ⟨0x0B104, 64, 32, .none, .hiRW, 0x0, 0xFFFFFFFF, 0x0, 0x0, 0x0⟩,
    ⟨0x0B108, 64, 32, .none, .loRW, 0x0, 0xFFFFFFC0, 0x0, 0x0, 0x0⟩,
    ⟨0x0B10C, 64, 32, .none, .hiRW, 0x0, 0xFFFFFFFF, 0x0, 0x0, 0x0⟩,
    ⟨0x0B110, 64, 32, .none, .plain, 0x44, 0x1F3FF, 0x0, 0x0, 0x0⟩,
    ⟨0x0B114, 64, 32, .none, .plain, 0x0, 0x0, 0x0, 0x0, 0x0⟩,
    ⟨0x0B118, 64, 32, .none, .plain, 0x0, 0x0, 0x0, 0x0, 0x0⟩,
    ⟨0x0B11C, 64, 32, .none, .plain, 0x0, 0x0, 0x3000000, 0x0, 0x0⟩ ]

/-- Page 0x0C, BRX_. -/
def regRowsBrx : List RegRow :=
  [ ⟨0x0C000, 0, 1, .none, .plain, 0xC000, 0xCF07, 0x0, 0x0, 0x0⟩,
    ⟨0x0C004, 0, 1, .none, .plain, 0x0, 0x0, 0x3F0000, 0x0, 0x0⟩,
    ⟨0x0C008, 0, 1, .none, .plain, 0x0, 0x0, 0x0, 0x0, 0x0⟩,
    ⟨0x0C00C, 0, 1, .none, .plain, 0x0, 0x0, 0x0, 0x0, 0x1⟩,
    ⟨0x0C010, 0, 1, .none, .plain, 0x0, 0x0, 0x0, 0x0, 0x0⟩,
    ⟨0x0C014, 0, 1, .none, .plain, 0x0, 0x0, 0x0, 0x0, 0x0⟩,
    ⟨0x0C018, 0, 1, .none, .plain, 0x0, 0xFFFF, 0x0, 0x0, 0x0⟩,
    ⟨0x0C01C, 0, 1, .none, .plain, 0x0, 0xFFFF, 0x0, 0x0, 0x0⟩,
    ⟨0x0C020, 0, 1, .none, .plain, 0x0, 0x0, 0x0, 0x0, 0x0⟩,
    ⟨0x0C024, 0, 1, .none, .plain, 0x0, 0x0, 0x0, 0x0, 0x0⟩,
    ⟨0x0C028, 0, 1, .none, .plain, 0x0, 0x0, 0x0, 0x0, 0x0⟩,
    ⟨0x0C02C, 0, 1, .none, .plain, 0x0, 0x0, 0x0, 0x0, 0x0⟩,
    ⟨0x0C030, 0, 1, .none, .plain, 0x0, 0x0, 0x0, 0x0, 0x0⟩,
    ⟨0x0C034, 0, 1, .none, .plain, 0x103, 0x1FF, 0x0, 0x0, 0x0⟩,
    ⟨0x0C038, 0, 1, .none, .plain, 0x0, 0x0, 0x0, 0x0, 0x0⟩,
    ⟨0x0C040, 0, 1, .none, .loRO, 0x0, 0x0, 0x0, 0x0, 0x0⟩,
    ⟨0x0C044, 0, 1, .none, .hiRO, 0x0, 0x0, 0x0, 0x0, 0x0⟩ ]

/-- Page 0x0D, SRV_. -/
def regRowsSrv : List RegRow :=
  [ ⟨0x0D000, 0, 1, .none, .plain, 0x0, 0xF, 0x0, 0x0, 0x700⟩,
    ⟨0x0D004, 0, 1, .none, .plain, 0x0, 0x0, 0x1F00, 0x0, 0x0⟩,
    ⟨0x0D008, 0, 1, .none, .plain, 0x1, 0xFFFF007F, 0x0, 0x0, 0x0⟩,
    ⟨0x0D00C, 0, 1, .none, .plain, 0x10003C, 0xFFFFFF, 0x0, 0x0, 0x0⟩,
    ⟨0x0D010, 0, 1, .none, .plain, 0x2001388, 0xF00FFFF, 0x0, 0x0, 0x0⟩,
    ⟨0x0D014, 0, 1, .none, .plain, 0x61A80, 0xFFFFFFFF, 0x0, 0x0, 0x0⟩,
    ⟨0x0D018, 0, 1, .none, .plain, 0x0, 0x0, 0x0, 0x0, 0x0⟩,
    ⟨0x0D01C, 0, 1, .none, .plain, 0x0, 0x0, 0x0, 0x0, 0x0⟩,
    ⟨0x0D020, 0, 1, .none, .plain, 0x0, 0x0, 0x0, 0x0, 0x0⟩,
    ⟨0x0D024, 4, 2, .none, .plain, 0x0, 0x0, 0x0, 0x0, 0x0⟩,
    ⟨0x0D100, 4, 64, .none, .plain, 0x0, 0xFFFF3F, 0x0, 0x0, 0x0⟩,
    ⟨0x0D200, 8, 64, .none, .plain, 0x0, 0xFFF3FFF, 0x0, 0x0, 0x0⟩,
    ⟨0x0D204, 8, 64, .none, .plain, 0x0, 0xFFFFFFFF, 0x0, 0x0, 0x0⟩,
    ⟨0x0D400, 4, 64, .none, .plain, 0x0, 0xFFFFFFFF, 0x0, 0x0, 0x0⟩,
    ⟨0x0D500, 8, 64, .none, .loRO, 0x6000000, 0x0, 0x0, 0x0, 0x0⟩,
    ⟨0x0D504, 8, 64, .none, .hiRO, 0x0, 0x0, 0x0, 0x0, 0x0⟩,
    ⟨0x0D700, 4, 64, .none, .plain, 0xFFFF, 0x0, 0x0, 0x0, 0x0⟩ ]

/-- Page 0x0E, MEM_, part 0. -/
def regRowsMem0 : List RegRow :=
  [ ⟨0x0E000, 0, 1, .none, .plain, 0xF, 0xF, 0x0, 0x0, 0x300⟩,
    ⟨0x0E004, 0, 1, .none, .plain, 0x0, 0x0, 0x7FC, 0x0, 0x0⟩,
    ⟨0x0E008, 0, 1, .none, .plain, 0x3E8, 0xFFFF, 0x0, 0x0, 0x0⟩,
    ⟨0x0E00C, 0, 1, .none, .plain, 0x0, 0x7F, 0x0, 0x0, 0x0⟩,
    ⟨0x0E010, 0, 1, .none, .plain, 0x0, 0x7FFFF, 0x0, 0x0, 0x0⟩,
    ⟨0x0E014, 0, 1, .none, .plain, 0x0, 0x0, 0x0, 0x0, 0x0⟩,
    ⟨0x0E018, 0, 1, .none, .plain, 0x0, 0x7F, 0x0, 0x0, 0x0⟩,
    ⟨0x0E01C, 0, 1, .none, .plain, 0x0, 0x0, 0x0, 0x0, 0x0⟩,
    ⟨0x0E020, 0, 1, .none, .plain, 0x0, 0x0, 0x0, 0x0, 0x0⟩,
    ⟨0x0E024, 0, 1, .none, .plain, 0x0, 0x0, 0x0, 0x0, 0x0⟩,
    ⟨0x0E028, 0, 1, .none, .loRO, 0x0, 0x0, 0x0, 0x0, 0x0⟩,
    ⟨0x0E02C, 0, 1, .none, .hiRO, 0x0, 0x0, 0x0, 0x0, 0x0⟩,
    ⟨0x0E030, 0, 1, .none, .plain, 0x0, 0x0, 0x0, 0x0, 0x0⟩,
    ⟨0x0E034, 0, 1, .none, .plain, 0x0, 0x0, 0x0, 0x0, 0x0⟩,
    ⟨0x0E038, 0, 1, .none, .plain, 0x0, 0x0, 0x0, 0x0, 0x0⟩,
    ⟨0x0E03C, 0, 1, .none, .plain, 0x0, 0x0, 0x0, 0x0, 0x0⟩,
    ⟨0x0E040, 0, 1, .none, .plain, 0x0, 0x0, 0x0, 0x0, 0x0⟩,
    ⟨0x0E044, 0, 1, .none, .plain, 0x0, 0x0, 0x0, 0x0, 0x0⟩,
    ⟨0x0E048, 0, 1, .none, .plain, 0x0, 0x0, 0x0, 0x0, 0x0⟩,
    ⟨0x0E04C, 0, 1, .none, .plain, 0x0, 0x0, 0x0, 0x0, 0x0⟩,
    ⟨0x0E050, 0, 1, .none, .plain, 0x0, 0x0, 0x0, 0x0, 0x0⟩,
    ⟨0x0E054, 0, 1, .none, .plain, 0x0, 0x0, 0x0, 0x0, 0x0⟩,
    ⟨0x0E058, 0, 1, .none, .plain, 0x3E801F40, 0xFFFFFFFF, 0x0, 0x0, 0x0⟩,
    ⟨0x0E100, 4, 16, .none, .plain, 0x0, 0x0, 0x0, 0x0, 0x0⟩,
    ⟨0x0E400, 4, 256, .none, .plain, 0x0, 0xFFFFFFFF, 0x0, 0x0, 0x0⟩ ]

/-- Page 0x0E, MEM_, part 1. -/
def regRowsMem1 : List RegRow :=
  [ ⟨0x0E800, 4, 256, .none, .plain, 0x0, 0xFFFFFFFF, 0x0, 0x0, 0x0⟩,
    ⟨0x0EC00, 4, 256, .none, .plain, 0x0, 0xFFFFFFFF, 0x0, 0x0, 0x0⟩ ]

/-- Page 0x0E, MEM_. -/
def regRowsMem : List RegRow :=
  regRowsMem0 ++ regRowsMem1

/-- Page 0x0F, ENG_. -/
def regRowsEng : List RegRow :=
  [ ⟨0x0F000, 0, 1, .none, .plain, 0x0, 0x0, 0x0, 0x0, 0x0⟩,
    ⟨0x0F100, 4, 8, .none, .plain, 0x0, 0x0, 0x0, 0x0, 0x0⟩ ]

/-- Page 0x10, FW_. -/
def regRowsFw : List RegRow :=
  [ ⟨0x10000, 0, 1, .none, .plain, 0x0, 0x0, 0x700, 0x0, 0x0⟩,
    ⟨0x10004, 0, 1, .none, .plain, 0x0, 0x0, 0x0, 0x0, 0x0⟩,
    ⟨0x10008, 0, 1, .none, .plain, 0x0, 0x0, 0x0, 0x0, 0x0⟩,
    ⟨0x1000C, 0, 1, .none, .plain, 0x0, 0x0, 0x0, 0x0, 0x0⟩,
    ⟨0x10010, 4, 3, .none, .plain, 0x0, 0x0, 0x0, 0x0, 0x0⟩,
    ⟨0x10020, 0, 1, .none, .loRO, 0x0, 0x0, 0x0, 0x0, 0x0⟩,
    ⟨0x10024, 0, 1, .none, .hiRO, 0x0, 0x0, 0x0, 0x0, 0x0⟩ ]

/-- Page 0x11, ID_. -/
def regRowsId : List RegRow :=
  [ ⟨0x11000, 0, 1, .none, .plain, 0x0, 0x0, 0x0, 0x0, 0x0⟩,
    ⟨0x11008, 0, 1, .none, .loRO, 0x0, 0x0, 0x0, 0x0, 0x0⟩,
    ⟨0x1100C, 0, 1, .none, .hiRO, 0x0, 0x0, 0x0, 0x0, 0x0⟩,
    ⟨0x11010, 0, 1, .none, .plain, 0x0, 0xFFFF, 0x0, 0x0, 0x0⟩,
    ⟨0x11020, 4, 8, .none, .plain, 0x0, 0x0, 0x0, 0x0, 0x0⟩,
    ⟨0x11040, 0, 1, .none, .plain, 0x0, 0x0, 0x0, 0x0, 0x0⟩ ]

/-- Page 0x12, PWR_. -/
def regRowsPwr : List RegRow :=
  [ ⟨0x12000, 0, 1, .none, .plain, 0x0, 0x0, 0x1A, 0x0, 0x0⟩,
    ⟨0x12004, 0, 1, .none, .plain, 0x1, 0x0, 0x0, 0x0, 0x0⟩,
    ⟨0x12008, 0, 1, .none, .plain, 0x0, 0x0, 0x0, 0x0, 0xFFFF⟩,
    ⟨0x1200C, 0, 1, .none, .plain, 0x0, 0x0, 0x0, 0x0, 0x0⟩,
    ⟨0x12010, 0, 1, .none, .plain, 0x0, 0x0, 0x0, 0x0, 0x0⟩,
    ⟨0x12014, 0, 1, .none, .plain, 0x5, 0xF, 0x0, 0x0, 0x0⟩,
    ⟨0x12018, 0, 1, .none, .plain, 0x0, 0x0, 0x0, 0x0, 0x0⟩,
    ⟨0x12040, 4, 9, .none, .plain, 0x0, 0x0, 0x0, 0x0, 0x0⟩ ]

/-- The rows of a page (17 Table 17.1); none above page 0x12. -/
def regPage : Nat → List RegRow
  | 0x00 => regRowsTop
  | 0x01 => regRowsTime
  | 0x02 => regRowsStn
  | 0x03 => regRowsFe
  | 0x04 => regRowsCal
  | 0x05 => regRowsHit
  | 0x06 => regRowsTrg
  | 0x07 => regRowsHis
  | 0x08 => regRowsCmp
  | 0x09 => regRowsLnk
  | 0x0A => regRowsSpl
  | 0x0B => regRowsCtl
  | 0x0C => regRowsBrx
  | 0x0D => regRowsSrv
  | 0x0E => regRowsMem
  | 0x0F => regRowsEng
  | 0x10 => regRowsFw
  | 0x11 => regRowsId
  | 0x12 => regRowsPwr
  | _ => []

/-- Whether an address is a word of a row. -/
def RegRow.has (r : RegRow) (a : Nat) : Bool :=
  if r.count = 1 then a == r.base
  else r.base ≤ a && (a - r.base) % r.stride == 0 && (a - r.base) / r.stride < r.count

/-- The row that a 20-bit register address names; none for an unmapped one (17 R466). -/
def regRow (a : Nat) : Option RegRow :=
  (regPage (a / 0x1000)).find? (·.has a)

/-- The key of a register's copy of instance `i` in State's register table. -/
def regKey (a i : Nat) : Nat := a + 0x100000 * i

/-- The reset value of the register whose key is `k` (17 R465). -/
def regReset (k : Nat) : Word :=
  match regRow (k % 0x100000) with
  | some r => BitVec.ofNat 32 r.reset
  | none => 0

end Sys2Proof.Machine
end

