-- ==== Sys2Proof/Machine/State.lean ====
section
/-!
DEFINITION. The state of one hub: every register, buffer, queue, counter, mode and pin that the manual gives it, and the
queue of the commands that wait.
-/

namespace Sys2Proof.Machine

open Sys2Proof

/-- Faults. The hub is a block without a program: no rule of the manual stops it, so no meaning raises a fault. -/
inductive Fault where
  /-- Raised by no meaning; safe. -/
  | none
  deriving DecidableEq, Repr

/-- Refusals. -/
inductive Refusal where
  /-- A command without a meaning in this model; raised by Dispatch.lean only; safe. -/
  | notModelled (mnemonic : String)
  deriving DecidableEq, Repr

/-- The state of the hub. -/
structure State where
  /-- Register words, by `regKey`; an unlisted one reads as its reset value (17 R465). -/
  regs : Tab Word
  /-- Values in effect of registers that are staged, by `regKey` (03 R82, 05 R153). -/
  effRegs : Tab Word
  /-- The access paths (17 R467). -/
  spi : PathState
  downlink : PathState
  stakePath : PathState
  time : TimeState
  servo : ServoState
  ref : RefState
  power : PowerState
  /-- Pending stakes in the order of acceptance (02 R73). -/
  stakes : List Stake
  /-- The last 64 tie records, newest first, TSEQ of the next one, and its FLAGS [2:0] and [5] so far (02 R68). -/
  ties : List TieRec
  tseq : Nat
  tieFlags : Byte
  /-- Receive lanes (09 R284). -/
  dla : RxLaneState
  dlb : RxLaneState
  brixP : RxLaneState
  brixQ : RxLaneState
  /-- FSEQ of the last command frame in order, on the fast-command downlink (09 R268). -/
  fseq : Option Nat
  /-- Transmit lanes: UL n at n, Brix P at 32, Brix Q at 33. -/
  txLanes : Tab TxLane
  spool : SpoolState
  ctl : CtlState
  brix : BrixState
  /-- Channels 0 to 511. -/
  chans : Tab Channel
  /-- Slices 0 to 1055, hub-wide (00 R15). -/
  slices : Tab Slice
  /-- Stations 0 to 31. -/
  stations : Tab Station
  /-- Injection sources 0 to 3. -/
  sources : Tab InjSource
  dcTest : DcTest
  /-- PIPE: containers by 2048 (x mod 4096) + 4 channel + k (01 R20). -/
  pipe : Tab Container
  trig : TrigState
  hist : HistState
  survey : SurveyState
  mem : MemState
  fw : FwState
  /-- Rail voltages at the balls and their lowest values, mV, by rail (16 Table 16.6). -/
  railMv : Tab Nat
  railMin : Tab Nat
  /-- The boundary-scan instruction in effect (16 R461). -/
  scan : ScanInstr
  /-- What the hub has sent, newest first (the model's own record, notes/assumptions/6.md). -/
  tx : List Tx
  /-- How many free values have been taken (the model's own, notes/assumptions/4.md). -/
  fresh : Nat
  /-- The commands that wait, first in, first out. -/
  pending : List Instr
  deriving DecidableEq, Repr

/-- The hub right after a power reset at power-on, in phase RAILS (16 R450, R451, R454). -/
def State.reset : State where
  regs := []
  effRegs := []
  spi := .init
  downlink := .init
  stakePath := .init
  time := .init
  servo := .init
  ref := .init
  power := .init
  stakes := []
  ties := []
  tseq := 0
  tieFlags := 0
  dla := .init
  dlb := .init
  brixP := .init
  brixQ := .init
  fseq := none
  txLanes := []
  spool := .init
  ctl := .init
  brix := .init
  chans := []
  slices := []
  stations := []
  sources := []
  dcTest := .init
  pipe := []
  trig := .init
  hist := .init
  survey := .init
  mem := .init
  fw := .init
  railMv := []
  railMin := []
  scan := .bypass
  tx := []
  fresh := 0
  pending := []

end Sys2Proof.Machine
end

