-- ==== Sys2Proof/Machine/Ops.lean ====
section
/-!
DEFINITION. The named operations over the parts of State: registers, access paths, channels, slices, stations, lanes,
rings; the reading of the time bases; the answer of an event that is due or not.
-/

namespace Sys2Proof.Machine

open Sys2Proof

/-- The answer of an event of the hub's own: its effect when it is due, and nothing when it is not
(notes/assumptions/2.md). -/
def whenDue (s : State) (due : Bool) (t : State) : Host.Outcome State Fault Refusal :=
  .next (if due then t else s)

/-- The word stored under a register key. -/
def State.reg (s : State) (a : Nat) : Word := tabGet (regReset a) s.regs a

/-- The state with the word of a register key replaced. -/
def State.setReg (s : State) (a : Nat) (v : Word) : State :=
  { s with regs := tabSet (regReset a) s.regs a v }

/-- Bits [h:l] of a stored register word. -/
def State.fld (s : State) (a h l : Nat) : Nat := bits (s.reg a) h l

/-- Sets bits of a stored register word (a W1C event, 00 R11). -/
def State.orReg (s : State) (a : Nat) (m : Word) : State := s.setReg a (s.reg a ||| m)

/-- Sets bit `b` of a stored register word. -/
def State.event (s : State) (a b : Nat) : State := s.orReg a (place 1 b)

/-- Replaces bits [h:l] of a stored register word. -/
def State.setFld (s : State) (a h l n : Nat) : State := s.setReg a (putBits (s.reg a) h l n)

/-- Counts one in bits [h:l] of a stored register word; the count stops at all ones. -/
def State.countFld (s : State) (a h l : Nat) : State :=
  s.setFld a h l (satInc (2 ^ (h + 1 - l) - 1) (s.fld a h l))

/-- Adds `n` in bits [h:l] of a stored register word; the count stops at all ones. -/
def State.addFld (s : State) (a h l n : Nat) : State :=
  s.setFld a h l (min (2 ^ (h + 1 - l) - 1) (s.fld a h l + n))

/-- The value in effect of a staged register; an unlisted one has its reset value in effect. -/
def State.eff (s : State) (a : Nat) : Word := tabGet (regReset a) s.effRegs a

/-- Puts a value into effect. -/
def State.setEff (s : State) (a : Nat) (v : Word) : State :=
  { s with effRegs := tabSet (regReset a) s.effRegs a v }

/-- What a path keeps for itself. -/
def State.path (s : State) : Path → PathState
  | .spi => s.spi
  | .downlink => s.downlink
  | .stake => s.stakePath

/-- Replaces what a path keeps for itself. -/
def State.setPath (s : State) (p : Path) (v : PathState) : State :=
  match p with
  | .spi => { s with spi := v }
  | .downlink => { s with downlink := v }
  | .stake => { s with stakePath := v }

def State.chan (s : State) (c : Nat) : Channel := tabGet Channel.init s.chans c
def State.setChan (s : State) (c : Nat) (v : Channel) : State :=
  { s with chans := tabSet Channel.init s.chans c v }
def State.slice (s : State) (j : Nat) : Slice := tabGet Slice.init s.slices j
def State.setSlice (s : State) (j : Nat) (v : Slice) : State :=
  { s with slices := tabSet Slice.init s.slices j v }
def State.stn (s : State) (j : Nat) : Station := tabGet Station.init s.stations j
def State.setStn (s : State) (j : Nat) (v : Station) : State :=
  { s with stations := tabSet Station.init s.stations j v }
def State.src (s : State) (j : Nat) : InjSource := tabGet InjSource.init s.sources j
def State.setSrc (s : State) (j : Nat) (v : InjSource) : State :=
  { s with sources := tabSet InjSource.init s.sources j v }
def State.lane (s : State) (n : Nat) : TxLane := tabGet TxLane.init s.txLanes n
def State.setLane (s : State) (n : Nat) (v : TxLane) : State :=
  { s with txLanes := tabSet TxLane.init s.txLanes n v }
def State.cls (s : State) (c : Nat) : SpoolClass := tabGet SpoolClass.init s.spool.classes c
def State.setCls (s : State) (c : Nat) (v : SpoolClass) : State :=
  { s with spool := { s.spool with classes := tabSet SpoolClass.init s.spool.classes c v } }
def State.ring (s : State) (r : Nat) : Ring := tabGet Ring.init s.ctl.rings r
def State.setRing (s : State) (r : Nat) (v : Ring) : State :=
  { s with ctl := { s.ctl with rings := tabSet Ring.init s.ctl.rings r v } }
def State.bank (s : State) (b : Nat) : Bank := tabGet Bank.init s.mem.banks b
def State.setBank (s : State) (b : Nat) (v : Bank) : State :=
  { s with mem := { s.mem with banks := tabSet Bank.init s.mem.banks b v } }
def State.engine (s : State) (k : Nat) : Engine := tabGet Engine.init s.fw.engines k
def State.setEngine (s : State) (k : Nat) (v : Engine) : State :=
  { s with fw := { s.fw with engines := tabSet Engine.init s.fw.engines k v } }
def State.slot (s : State) (i : Nat) : Slot := tabGet Slot.init s.fw.slots i
def State.setSlot (s : State) (i : Nat) (v : Slot) : State :=
  { s with fw := { s.fw with slots := tabSet Slot.init s.fw.slots i v } }
def State.srvRes (s : State) (k : Nat) : SrvRes := tabGet SrvRes.init s.survey.results k
def State.setSrvRes (s : State) (k : Nat) (v : SrvRes) : State :=
  { s with survey := { s.survey with results := tabSet SrvRes.init s.survey.results k v } }

/-- A receive lane. -/
def State.rx (s : State) : RxLane → RxLaneState
  | .dla => s.dla
  | .dlb => s.dlb
  | .brixP => s.brixP
  | .brixQ => s.brixQ

/-- Replaces a receive lane. -/
def State.setRx (s : State) (l : RxLane) (v : RxLaneState) : State :=
  match l with
  | .dla => { s with dla := v }
  | .dlb => { s with dlb := v }
  | .brixP => { s with brixP := v }
  | .brixQ => { s with brixQ := v }

/-- Whether a receive lane is UP. -/
def State.rxUp (s : State) (l : RxLane) : Bool := (s.rx l).stat == .up

/-- Records what the hub sends (notes/assumptions/6.md). -/
def State.emit (s : State) (t : Tx) : State := { s with tx := t :: s.tx }

/-- Characters that a transmit lane sends in a crossing (09 R263). -/
def TxLane.rate (l : TxLane) : Nat := 5 * 2 ^ l.step

/-- A serial lane sends: its disparity runs on. Whenever a data lane has nothing to send it sends K28.5, each of which turns
the disparity over; how many of them go before an item in the crossing in which it begins is free (09 R264, R265;
notes/assumptions/86.md). -/
def State.sendLane (s : State) (n : Nat) (item : LineItem) : State :=
  let l := s.lane n
  if item.afterIdles then
    let k := Config.freeNat s.fresh % l.rate
    let rd := if k % 2 == 1 then !l.rd else l.rd
    let t := s.setLane n { l with rd := disparityAfter rd item.chars, seqAt := 1 }
    { t with tx := .line n rd item :: .line n l.rd (.idle k) :: s.tx, fresh := s.fresh + 1 }
  else
    let t := s.setLane n { l with rd := disparityAfter l.rd item.chars }
    { t with tx := .line n l.rd item :: s.tx }

/-- The next free number, and the state in which it is taken (notes/assumptions/4.md). -/
def State.free (s : State) : Nat × State :=
  (Config.freeNat s.fresh, { s with fresh := s.fresh + 1 })

/-- N and G in effect (02 R46). -/
def State.n (s : State) : Nat := s.time.orbitN
def State.g (s : State) : Nat := s.time.orbitG

/-- How many orbits `a` lies after `b`, the difference modulo 2⁴⁴ taken as a signed number (02 R42). -/
def orbitDiff (a b : Nat) : Int := sext 44 (a + 2 ^ 44 - b % 2 ^ 44)

/-- The orbit after one. -/
def nextOrbit (a : Nat) : Nat := (a + 1) % 2 ^ 44

/-- A Datum as its registers and records hold it: [63:20] orbit, [12:0] crossing (02 Table 2.8). -/
def datumWord (orbit cross : Nat) : Nat := (orbit % 2 ^ 44) * 2 ^ 20 + cross % 2 ^ 13

/-- The Datum now. -/
def State.datum (s : State) : Nat := datumWord s.time.orbit s.time.cross

/-- Whether this is the first crossing of the orbit gap. -/
def State.atGap (s : State) : Bool := s.time.cross == s.n - s.g

/-- The Datum that `d` crossings after a change carry (02 R46, 07 R213). -/
def datumAfter (c : DatumChange) (d : Nat) : Nat × Nat :=
  if c.len = 0 then (c.orbit, c.cross + d)
  else ((c.orbit + (c.cross + d) / c.len) % 2 ^ 44, (c.cross + d) % c.len)

/-- The Datum under which crossing `x` of the running count was formed (02 R51). -/
def datumOf : List DatumChange → Nat → Nat × Nat
  | [], _ => (0, 0)
  | c :: t, x => if c.x ≤ x then datumAfter c (x - c.x) else datumOf t x

/-- The Datum of a running count, past or to come with no further change. -/
def State.datumAt (s : State) (x : Nat) : Nat × Nat := datumOf s.time.changes x

/-- Notes that from the present crossing on the Datum counts anew; with `flag` it is a change of Datum and not of the orbit's
length only, which is flagged in the next tie record (02 R51, 07 R213). Every one is kept: records carry the Datum of their
crossing, however many changes have come since. -/
def State.noteDatum (s : State) (flag : Bool) : State :=
  let (same, rest) := match s.time.changes with
    | h :: t => if h.x = s.time.xcount then (h.real, t) else (false, h :: t)
    | [] => (true, [])
  { s with
    time := { s.time with changes := ⟨s.time.xcount, s.time.orbit, s.time.cross, s.n, flag || same⟩ :: rest }
    tieFlags := if flag then s.tieFlags ||| 1 else s.tieFlags }

/-- Meridian has been loaded (02 R43): EPOCH_SET of TIME_STAT. -/
def State.epochSet (s : State) : Bool := bit (s.reg Reg.timeStat) 13

/-- The framing downlink with REF_SEL = REFCLK (02 R67). -/
def State.framing (s : State) : Option Downlink :=
  if s.dla.stat == .up then some .a else if s.dlb.stat == .up then some .b else none

/-- REF_SEL: 0 DLA, 1 DLB, 2 Brix ring, 3 REFCLK (02 Table 2.9). -/
def State.refSel (s : State) : Nat := s.fld Reg.timeCtl 1 0

/-- REF_FALLBACK (02 Table 2.9). -/
def State.refFallback (s : State) : Bool := bit (s.reg Reg.timeCtl) 2

/-- A downlink that can be the reference: UP and not found unusable (02 R62, 09 R272). -/
def State.dlUsable (s : State) : Downlink → Bool
  | .a => s.dla.stat == .up && !s.ref.dlaBad
  | .b => s.dlb.stat == .up && !s.ref.dlbBad

/-- The downlink that REF_SEL names, when it names one (02 Table 2.9). -/
def State.selDl (s : State) : Downlink := if s.refSel = 0 then .a else .b

/-- A head whose bypass is open (12 R336, R350). -/
def State.headOpen (s : State) : Bool :=
  2 ≤ s.fld Reg.brxCfg 11 8 && s.fld Reg.brxCfg 2 0 < 2 && s.brix.bypassOpen

/-- The downlink that is the reference under R62, if any (REF_SEL DLA or DLB); a head's other downlink is its partner's
frames instead (12 R349). -/
def State.refDl (s : State) : Option Downlink :=
  let oth : Downlink := if s.refSel = 0 then .b else .a
  if s.dlUsable s.selDl then some s.selDl
  else if s.refFallback && !s.headOpen && s.dlUsable oth then some oth
  else none

/-- A Brix receive lane that can bring the reference: UP and not found unusable (12 R348, 09 R272). -/
def State.portUsable (s : State) : Port → Bool
  | .p => s.brixP.stat == .up && !s.ref.brixPBad
  | .q => s.brixQ.stat == .up && !s.ref.brixQBad

/-- A port brings the other head's frames to this head: their SRC is not its own (12 Table 12.1). -/
def State.partnerOn (s : State) (pt : Port) : Bool :=
  s.portUsable pt && (match pt with | .p => s.brixP.rhdr | .q => s.brixQ.rhdr).getLsbD 0 == (s.fld Reg.brxCfg 2 0 == 0)

/-- A head that has fallen back on its partner's frames (12 R349). -/
def State.headRef (s : State) : Bool :=
  s.refSel < 2 && s.headOpen && s.refFallback && !s.dlUsable s.selDl && (s.partnerOn .p || s.partnerOn .q)

/-- Whether a reference is usable: the one that R62 or R67 makes the hub follow (02 R516). -/
def State.refUsable (s : State) : Bool :=
  match s.refSel with
  | 2 => s.portUsable .p || s.portUsable .q
  | 3 => !s.ref.refclkBad ||
      (s.refFallback && match s.framing with | some d => s.dlUsable d | none => false)
  | _ => s.refDl.isSome || s.headRef

/-- The downlink from which fast commands come (09 R270); none when they come from the ring. -/
def State.fcDl (s : State) : Option Downlink :=
  match s.refSel with
  | 2 => none
  | 3 => s.framing
  | _ => s.refDl

/-- Where crossing 0 comes from: 0 nowhere, 1 DLA, 2 DLB, 3 the ring, 4 the partner's frames (02 R62, R67; 12 R349). -/
def State.zeroSource (s : State) : Nat :=
  match s.fcDl with
  | some .a => 1
  | some .b => 2
  | none => if s.refSel = 2 then (if s.refUsable then 3 else 0) else if s.headRef then 4 else 0

/-- The downlink whose control stream is parsed (09 R270). -/
def State.ctlDl (s : State) : Option Downlink :=
  if bit (s.reg Reg.lnkCtl) 2 then s.fcDl
  else some (if bit (s.reg Reg.lnkCtl) 3 then .b else .a)

/-- The word of a servo parameter in effect: a change made during a restart of E3 applies at the first gap crossing after
it (01 Table 1.3, 15 Table 15.1). -/
def State.servoReg (s : State) (a : Nat) : Word := if s.servo.held then s.eff a else s.reg a

/-- Bits [h:l] of a servo parameter in effect. -/
def State.servoFld (s : State) (a h l : Nat) : Nat := bits (s.servoReg a) h l

/-- SERVO_STATE: 0 OFF, 1 ACQUIRE, 2 LOCKED, 3 HOLD_PHASE (02 R516). -/
def State.servoState (s : State) : Nat :=
  if !bit (s.servoReg Reg.timeServoCtl) 0 then 0
  else if s.servo.holdPhase then 3
  else if s.servo.locked then 2
  else 1

/-- TIME_STAT.STATE: 0 ACQUIRE, 1 TRACKING, 2 HOLDOVER, 3 FREE (02 R516). -/
def State.timeStateCode (s : State) : Nat :=
  if s.ref.free then 3
  else if s.ref.holdover then 2
  else if s.refUsable && s.servoState == 2 then 1
  else 0

/-- A crossing in ps, in units of 2⁻²⁴ ps: TIME_MER_PERIOD (02 R44; notes/assumptions/8.md). -/
def State.period (s : State) : Nat :=
  (s.reg Reg.timeMerPeriod).toNat + 2 ^ 32 * (s.reg (Reg.timeMerPeriod + 4)).toNat

/-- The phase, in ps, that 0.1 ppm plus 0.02 ppm for each °C of change can have gathered since the hub left its last
reference (02 R64). -/
def State.heldDrift (s : State) (at_ : Nat) : Nat :=
  ceilDiv ((s.time.now - at_) * s.period * (1600 + 20 * s.ref.heldDev)) (16 * 10 ^ 9 * 2 ^ 24)

/-- U of R45: free on a present reference; in holdover the smallest U whose 2ᵁ ps covers the bound at the loss and what has
gathered since (02 R45, R64; notes/assumptions/7.md). -/
def State.boundU (s : State) : Nat :=
  match s.ref.heldAt with
  | none => Config.boundU s.time.now % 64
  | some a => ((upto 0 64).find? fun u => 2 ^ (Config.boundU a % 64) + s.heldDrift a ≤ 2 ^ u).getD 63

/-- QUALITY of a time-stamp (02 R45, R43, R64, R65, R67, R516). -/
def State.quality (s : State) : Nat :=
  let st :=
    if s.ref.free || !s.epochSet then 3
    else if s.refSel == 3 && s.framing.isNone then 3
    else if s.ref.holdover then 2
    else if s.timeStateCode == 1 then 0
    else 1
  st * 64 + s.boundU

/-- Data lane `n` is UP. -/
def State.laneUp (s : State) (n : Nat) : Bool := (s.lane n).st == .up

/-- At least one data lane is UP (10 R307). -/
def State.anyDataUp (s : State) : Bool := (upto 2 30).any s.laneUp

/-- XCH_LANE in effect: 0 and 1 act as 2 (02 Table 2.11). -/
def State.xchLane (s : State) : Nat := max 2 (s.servoFld Reg.timeServoCtl 7 3)

/-- Start-up has stopped in phase FAULT (16 R459). -/
def State.inFault (s : State) : Bool := s.power.phase == .fault

/-- The start-up phase as PWR_STARTUP codes it (16 Table 16.3). -/
def Phase.code : Phase → Nat
  | .rails => 0 | .fuse => 1 | .settings => 2 | .memtest => 3 | .stack => 4 | .image => 5
  | .links => 6 | .time => 7 | .cal => 8 | .join => 9 | .run => 10 | .fault => 15

/-- Start-up has passed phase `p`; in FAULT, the phases before the one that failed (16 R454, R459, Table 16.3). -/
def State.past (s : State) (p : Phase) : Bool :=
  p.code < (if s.inFault then s.power.faultPhase else s.power.phase.code)

/-- An exchange frame waits for its lane, from crossing 16 of its orbit on (02 R54). -/
def State.exchangePending (s : State) : Bool :=
  s.past .links && s.servo.frameDue && match s.servo.k281 with
    | some (_, o) => o != s.time.orbit || 16 ≤ s.time.cross
    | none => false

/-- The hub's own count in the crossing of running count `x`. -/
def State.nowOf (s : State) (x : Nat) : Nat := s.time.now + x - s.time.xcount

/-- A station island could not take this crossing under a sag (01 R34). -/
def State.sagAt (s : State) (st x : Nat) : Bool :=
  s.trig.sagLost.any fun (j, f, n) => j == st && f ≤ x && x < f + n

/-- A field of a stored register that acts as 1 when it is 0. -/
def State.fld1 (s : State) (a h l : Nat) : Nat := max 1 (s.fld a h l)

end Sys2Proof.Machine
end

