-- ==== Sys2Proof/Machine/Log.lean ====
section
/-!
DEFINITION. The upset log and the error counts (14 R401, R410, R413).
-/

namespace Sys2Proof.Machine

open Sys2Proof

/-- An upset log entry (14 Table 14.5). -/
def logEntry (x source unit addr synd detail lseq : Nat) : List Byte :=
  leBytes 6 x ++ leBytes 1 source ++ leBytes 1 unit ++ leBytes 4 addr ++ leBytes 2 synd ++ leBytes 2 detail ++
    leBytes 4 lseq ++ List.replicate 12 0

/-- An access of master `m` has waited: WAITS counts it, and MAXWAIT follows the longest wait, at least one port cycle; how many
cycles is not fixed (14 R394; notes/assumptions/31.md). -/
def State.noteWait (s : State) (m : Nat) : State :=
  let w := tabGet 0 s.mem.conf m
  let (x, s) := s.free
  let v := place (satInc 0xFFFFF (bits w 31 12)) 12 ||| place (min 0xFFF (max (bits w 11 0) (max 1 x))) 0
  { s with mem := { s.mem with conf := tabSet 0 s.mem.conf m v } }

/-- Records an event in the upset log: the oldest of 1024 entries is overwritten, and counts as lost when no
MEM_LOG_READ has read it. The first entry takes LSEQ 0 (notes/assumptions/21.md). -/
def State.logUpset (s : State) (source unit addr synd detail : Nat) : State :=
  let m := s.mem
  let e := logEntry s.time.xcount source unit addr synd detail m.lseq
  let full := 1024 ≤ m.log.length
  let lost := full && match m.log.getLast? with
    | some (_, read) => !read
    | none => false
  { s with mem := { m with
      log := ((e, false) :: m.log).take 1024
      lseq := (m.lseq + 1) % 2 ^ 32
      logLost := if lost then satInc 0xFFFFFFFF m.logLost else m.logLost } }

/-- SYNDROME, and DETAIL of a corrected error, in the log entry that comes next: no rule gives the codes, so both are free
(14 R413; notes/assumptions/28.md). -/
def State.syndrome (s : State) : Nat := Config.syndrome s.mem.lseq s.time.now % 65536
def State.errorBit (s : State) (width : Nat) : Nat := Config.errorBit s.mem.lseq s.time.now % width

/-! ### Banks (14 R392, R406) -/

/-- A large bank is served by redundant columns, a small one by spare lines (14 Table 14.1). -/
def largeBank (b : Nat) : Bool := b < 64

/-- Redundant columns fused by the factory (14 Table 14.10). -/
def fusedOf (b : Nat) : Nat := if largeBank b then min 8 (Config.fused b) else 0

/-- SPARE_LEFT of a bank: a redundant column that mirrors a weak one is no longer free (14 R406, Table 14.10). -/
def State.spareLeft (s : State) (b : Nat) : Nat :=
  (if largeBank b then 8 - fusedOf b else 16) - (s.bank b).used - (s.bank b).loaded - (s.bank b).repairs.length

/-- A column repair begins: a free redundant column mirrors the weak one; with none left REPAIR_EXHAUSTED is set
(14 R406). -/
def State.beginColumn (s : State) (b column : Nat) : State :=
  let k := s.bank b
  if k.repairs.any fun q => q.1 == column then s
  else if s.spareLeft b = 0 then s.event Reg.memStat 4
  else s.setBank b { k with repairs := k.repairs ++ [(column, 0)] }

/-- A column of a large bank is weak: with AUTO_COL = 1 its repair begins (14 R406). -/
def State.columnWeak (s : State) (b column : Nat) : State :=
  if largeBank b && bit (s.reg Reg.memCtl) 1 then s.beginColumn b column else s

/-- An uncorrectable SRAM error (14 R401): logged, counted in its bank, UE_EVT; in a large bank the column that it involves is
weak (14 R406). -/
def State.sramUe (s : State) (w : WordAt) : State :=
  let b := s.bank w.bank
  (((s.setBank w.bank { b with ue := satInc 0xFFFFFFFF b.ue }).event Reg.memStat 2).logUpset 2 w.bank (w.addr % 65536) s.syndrome
    0).columnWeak w.bank w.column

/-- A word in one of the banks that hold one thing: `n` banks from `b` on (14 Table 14.1). -/
def inBanks (w : WordAt) (b n : Nat) : WordAt := { w with bank := b + w.bank % n }

/-- A corrected SRAM error: counted in its bank and logged with the position of its bit in the 72-bit word. -/
def State.sramCe (s : State) (bank addr : Nat) : State :=
  let b := s.bank bank
  (s.setBank bank { b with ce := satInc 0xFFFFFFFF b.ce }).logUpset 1 bank addr s.syndrome (s.errorBit 72)

/-- `n` seconds in crossings of the hub's own count, from the crossing's length (notes/assumptions/8.md). -/
def State.seconds (s : State) (n : Nat) : Nat := if s.period = 0 then 0 else n * 10 ^ 12 * 2 ^ 24 / s.period

/-- `n` milliseconds in crossings of the hub's own count. -/
def State.millis (s : State) (n : Nat) : Nat := if s.period = 0 then 0 else n * 10 ^ 9 * 2 ^ 24 / s.period

/-- `n` microseconds in crossings of the hub's own count. -/
def State.micros (s : State) (n : Nat) : Nat := if s.period = 0 then 0 else n * 10 ^ 6 * 2 ^ 24 / s.period

/-- 24 h (14 R410). -/
def State.dayCrossings (s : State) : Nat := s.seconds 86400

/-- A corrected error in a DRAM row now makes it weak: reads in two separate scrub passes, this one's `pass` among them, or any
two reads within 24 h (14 R410). -/
def State.rowWeakens (s : State) (row : Nat) (pass : Option Nat) : Bool :=
  s.mem.weakRows.any fun (r, p, t) =>
    r == row && ((p.isSome && pass.isSome && p != pass) || s.time.now ≤ t + s.dayCrossings)

/-- Spare rows left in the bank group of a row (14 R410). -/
def State.spareRow (s : State) (row : Nat) : Nat := (s.mem.spareRows.drop (Config.rowGroup row)).headD 0

/-- A row is redirected for its soft repair; with no spare row left it stays in use (14 R410, R411). -/
def State.redirectRow (s : State) (row : Nat) : State :=
  if s.spareRow row = 0 then s.event Reg.memStat 4 else { s with mem := { s.mem with redirect := some row } }

/-- A weak row is redirected when AUTO_ROW = 1; while another row is repaired it waits (14 R410). -/
def State.rowWeak (s : State) (row : Nat) : State :=
  if !bit (s.reg Reg.memCtl) 2 || s.mem.redirect == some row || memNat s.mem.rowQueue row then s
  else if s.mem.redirect.isNone then s.redirectRow row
  else { s with mem := { s.mem with rowQueue := s.mem.rowQueue ++ [row] } }

/-- Reads of the configuration store are checked by page: corrected pages and one beyond correction are logged and counted
(14 R401, R413, Table 14.7). -/
def State.storeRead (s : State) (r : StoreRead) : State :=
  let t := r.corrected.foldl (fun t p =>
    ({ t with mem := { t.mem with nvmCe := satInc 0xFFFF t.mem.nvmCe } }).logUpset 7 0 p t.syndrome (t.errorBit 4096)) s
  match r.bad with
  | some p => (({ t with mem := { t.mem with nvmUe := satInc 0xFFFF t.mem.nvmUe } }).logUpset 8 0 p t.syndrome 0).event Reg.memStat 2
  | none => t

/-- What the check of a DRAM read finds; `pass` numbers the scrub pass whose read it is (14 Table 14.3, R401, R410). -/
def State.stackCheck (s : State) (ecc : EccResult) (row : Nat) (pass : Option Nat) : State :=
  match ecc with
  | .clean => s
  | .corrected =>
    let t := ({ s with mem := { s.mem with dramCe := (s.mem.dramCe + 1) % 2 ^ 64 } }).logUpset 3 0 row s.syndrome (s.errorBit 288)
    let weak := s.rowWeakens row pass
    let t := { t with mem := { t.mem with
      weakRows := (row, pass, t.time.now) :: t.mem.weakRows } }
    if weak then t.rowWeak row else t
  | .uncorrectable =>
    let t := ({ s with mem := { s.mem with dramUe := satInc 0xFFFFFFFF s.mem.dramUe } }).logUpset 4 0 row s.syndrome 0
    (t.event Reg.memStat 2).rowWeak row

/-- The same of a read that is none of the scrub's. -/
def State.dramRead (s : State) (ecc : EccResult) (row : Nat) : State := s.stackCheck ecc row none

end Sys2Proof.Machine
end

