-- ==== Sys2Proof/Machine/Spool.lean ====
section
/-!
DEFINITION. The uplink spool (10): placing records and items, closing, starting, acknowledging and resending packets.
-/

namespace Sys2Proof.Machine

open Sys2Proof

/-- Bytes of its share that a packet of `len` payload bytes occupies (10 R295). -/
def pktBytes (len : Nat) : Nat := 64 * ceilDiv (8 + len) 64

/-- Occupancy of a class: its closed packets that are not released (10 R295). -/
def SpoolClass.occ (k : SpoolClass) : Nat :=
  ((k.queue ++ k.held).map fun p => pktBytes p.payload.length).foldl (· + ·) 0

/-- The occupancy of a class with its open packet counted as if it were closed. -/
def SpoolClass.occOpen (k : SpoolClass) : Nat :=
  k.occ + match k.open_ with
    | some o => pktBytes o.bytes.length
    | none => 0

/-- A class's share in bytes; a share of 0 acts as 1 (10 R296). -/
def State.shareBytes (s : State) (c : Nat) : Nat := 65536 * s.fld1 (Reg.splShare c) 7 0

/-- 64-byte units of SPOOL macro `m` in use. -/
def State.macroUnits (s : State) (m : Nat) : Nat :=
  ((upto 0 8).map fun c =>
    (((s.cls c).queue ++ (s.cls c).held).map fun p =>
      if p.inMacro = m then pktBytes p.payload.length / 64 else 0).foldl (· + ·) 0).foldl (· + ·) 0

/-- SPOOL macro `m` takes new packets: not in retention, and its MEM_SLEEP bit clear or the macro woken (14 R397). -/
def State.macroOpen (s : State) (m : Nat) : Bool :=
  !memNat s.mem.asleep m && (!bit (s.reg Reg.memSleep) m || memNat s.mem.woken m)

/-- Starts the wake of a macro in retention (14 R398). -/
def State.wake (s : State) (m : Nat) : State :=
  { s with mem := { s.mem with asleep := delNat s.mem.asleep m, waking := insNat s.mem.waking m } }

/-- The macro a new packet of `len` bytes goes to; the lowest sleeping macro wakes when no other can take it
(14 R397). -/
def State.allocMacro (s : State) (len : Nat) : Nat × State :=
  let u := pktBytes len / 64
  match (upto 0 16).find? fun m => s.macroOpen m && s.macroUnits m + u ≤ 8192 with
  | some m => (m, s)
  | none =>
    match (upto 0 16).find? (memNat s.mem.asleep) with
    | some m =>
      let t := (s.wake m).event Reg.memStat 9
      (m, { t with mem := { t.mem with woken := insNat t.mem.woken m } })
    | none => (15, s)

/-- Puts into retention the SPOOL macros whose bit is set, that were not woken and that hold no packet (14 R397). -/
def State.spoolRetention (s : State) : State :=
  let sl := (upto 0 16).filter fun m =>
    bit (s.reg Reg.memSleep) m && !memNat s.mem.woken m && !memNat s.mem.asleep m &&
      !memNat s.mem.waking m && s.macroUnits m == 0
  { s with mem := { s.mem with asleep := sl.foldl insNat s.mem.asleep } }

/-- Closes the open packet of a class: it takes the next SEQ and enters the send queue; BMARK is set on every
BM_EVERY-th packet by SEQ and on one closed by the FLUSH timer (10 R294, R295, R301). -/
def State.closePacket (s : State) (c : Nat) (flush : Bool) : State :=
  let k := s.cls c
  match k.open_ with
  | none => s
  | some o =>
    let al := s.allocMacro o.bytes.length
    let p : Packet := {
      seq := k.nextSeq
      payload := o.bytes
      bmark := flush || (k.nextSeq + 1) % s.fld1 Reg.splBm 7 0 == 0
      start := o.start
      write := o.write
      restart := k.nextSeq == 0 && k.lastSent.isNone && k.queue.isEmpty
      sends := 0
      tmoResends := 0
      onTmo := false
      forLoss := false
      lane := 0
      sentAt := none
      inMacro := al.1 }
    al.2.setCls c { k with open_ := none, queue := k.queue ++ [p], nextSeq := (k.nextSeq + 1) % 2 ^ 32 }

/-- Bytes that the open packet of a class can still take. -/
def State.openRoom (s : State) (c : Nat) : Nat :=
  match (s.cls c).open_ with
  | some o => 4096 - o.bytes.length
  | none => 4096

/-- Places bytes in the open packet of a class, opening one when there is none (10 R294). -/
def State.appendOpen (s : State) (c : Nat) (bytes : List Byte) (start write : Bool) : State :=
  let k := s.cls c
  match k.open_ with
  | some o => s.setCls c { k with open_ := some { o with bytes := o.bytes ++ bytes } }
  | none => s.setCls c { k with open_ := some ⟨bytes, s.time.now, start, write⟩ }

/-- Places a record whole: the open packet is closed first when the record does not fit in the bytes left (10 R294). -/
def State.placeRecord (s : State) (c : Nat) (bytes : List Byte) (start write : Bool) : State :=
  if bytes.length ≤ s.openRoom c then s.appendOpen c bytes start write
  else (s.closePacket c false).appendOpen c bytes start write

/-- Places bytes that may run through consecutive packets (10 R294; 06 R188), `fuel` packets at most. -/
def State.placeLong (s : State) (c : Nat) (bytes : List Byte) (start : Bool) : Nat → State
  | 0 => s
  | fuel + 1 =>
    if bytes.isEmpty then s
    else
      let r := s.openRoom c
      if r = 0 then (s.closePacket c false).placeLong c bytes start fuel
      else (s.appendOpen c (bytes.take r) start false).placeLong c (bytes.drop r) false fuel

/-- A record of a class waits for its share, which then admits nothing else before it (10 Table 10.5). -/
def State.classWaits (s : State) (c : Nat) : Bool := s.spool.waiting.any fun w => w.cls == c

/-- The state after `f`, when the share of class `c` takes what `f` places beside a reserve of `res` bytes and no record
waits for it (10 R296, R308). -/
def State.tryShare (s : State) (c res : Nat) (f : State → State) : Option State :=
  let t := f s
  if !s.classWaits c && (t.cls c).occOpen + res ≤ t.shareBytes c then some t else none

/-- Places a record in a packet of its own. -/
def State.placeAlone (s : State) (c : Nat) (bytes : List Byte) (start write : Bool) : State :=
  ((s.closePacket c false).appendOpen c bytes start write).closePacket c false

/-- The queue entry of an accept is released (06 R183). -/
def State.freeAccept (s : State) (seq : Option Nat) : State :=
  match seq with
  | some q => { s with trig := { s.trig with accQueue := s.trig.accQueue.filter fun a => a.seq != q } }
  | none => s

/-- Places a record, or lets it wait for its share behind those that wait (10 R296, Table 10.5). -/
def State.orWait (s : State) (w : Waiting) : State :=
  (s.tryShare w.cls 0 fun t =>
    (if w.alone then t.placeAlone w.cls w.bytes w.start w.write
      else t.placeRecord w.cls w.bytes w.start w.write).freeAccept w.frees).getD
    { s with spool := { s.spool with waiting := s.spool.waiting ++ [w] } }

/-- Places a record whole, or lets it wait (10 Table 10.5). -/
def State.placeOrWait (s : State) (c : Nat) (bytes : List Byte) (start write : Bool) : State :=
  s.orWait ⟨c, bytes, start, write, false, none⟩

/-- Offers the records that wait for class `c` to its share again, in order; the first one that it does not take stops
them. -/
def State.placeWaiting (s : State) (c : Nat) : State :=
  let ws := s.spool.waiting.filter fun w => w.cls == c
  ws.foldl State.orWait
    { s with spool := { s.spool with waiting := s.spool.waiting.filter fun w => w.cls != c } }

/-- A record of a discardable class became a GAP: FULL on both paths and FULL_EVT (10 R308). -/
def State.gapFull (s : State) (c : Nat) : State :=
  let m : Byte := BitVec.ofNat 8 (2 ^ c)
  let t := s.event Reg.splStat 6
  { t with spi := { t.spi with full := t.spi.full ||| m }, downlink := { t.downlink with full := t.downlink.full ||| m } }

/-- The 16-byte item header (11 Table 11.3). -/
def itemHeader (kind mtype rtag len addr : Nat) : List Byte :=
  leBytes 1 kind ++ leBytes 1 mtype ++ leBytes 2 rtag ++ leBytes 4 len ++ leBytes 8 addr

/-- Data padded with 0x00 to a multiple of `m`. -/
def padTo (m : Nat) (l : List Byte) : List Byte :=
  l ++ List.replicate (m * ceilDiv l.length m - l.length) 0

/-- Places host writes as WRITE items, split at 8-byte boundaries where a packet ends (11 R312). -/
def State.placeWrite (s : State) (c addr : Nat) (data : List Byte) : Nat → State
  | 0 => s
  | fuel + 1 =>
    if data.isEmpty then s
    else
      let r := s.openRoom c
      if r < 24 then (s.closePacket c false).placeWrite c addr data fuel
      else
        let n := min data.length (min 4080 ((r - 16) / 8 * 8))
        (s.appendOpen c (itemHeader 1 0 0 n addr ++ data.take n) true true).placeWrite c (addr + n) (data.drop n) fuel

/-- Places one host write of any length. -/
def State.hostWrite (s : State) (c addr : Nat) (data : List Byte) : State :=
  s.placeWrite c addr data (2 * data.length + 2)

/-- Places a MESSAGE item in class 0 (11 Table 11.3). -/
def State.placeMessage (s : State) (mtype : Nat) (body : List Byte) : State :=
  s.placeRecord 0 (itemHeader 3 mtype 0 body.length 0 ++ padTo 8 body) true false

/-- Places a READ item in class 0 (11 Table 11.3); it waits while the share cannot take it (10 Table 10.5). -/
def State.placeRead (s : State) (rtag addr len : Nat) : State :=
  s.placeOrWait 0 (itemHeader 2 0 rtag len addr) true false

/-- The class-0 share takes a READ item. -/
def State.canRead (s : State) : Bool := (s.tryShare 0 0 fun t => t.placeRecord 0 (itemHeader 2 0 0 8 0) true false).isSome

/-- Credits that a packet needs (10 R298). -/
def Packet.credits (p : Packet) : Nat := ceilDiv p.payload.length 256

/-- Credit allows the packet (10 R299). -/
def SpoolClass.creditFor (k : SpoolClass) (p : Packet) : Bool :=
  decide ((p.credits : Int) ≤ sext 32 (k.limit + 2 ^ 32 - k.used % 2 ^ 32))

/-- The class has a packet that waits for credit (10 R299). -/
def SpoolClass.waitsCredit (k : SpoolClass) : Bool :=
  match k.queue with
  | p :: _ => !k.creditFor p
  | [] => false

/-- The packet of a class that goes next, and whether it is a resend (10 R297 step 5). -/
def State.nextOf (s : State) (c : Nat) : Option (Packet × Bool) :=
  let k := s.cls c
  let ready (p : Packet) : Bool := !memNat s.mem.waking p.inMacro
  match k.resend.find? fun q => k.held.any fun p => p.seq == q && ready p with
  | some q => (k.held.find? fun p => p.seq == q).map fun p => (p, true)
  | none =>
    match k.queue with
    | p :: _ => if k.creditFor p && ready p then some (p, false) else none
    | [] => none

/-- Classes in the order of their ranks (10 Table 10.2). -/
def rankOrder : List Nat := [6, 0, 2, 1, 5, 4, 3, 7]

/-- The class whose packet goes next: the guaranteed starts of classes 3 and 7 first (notes/assumptions/9.md), then the
lowest rank number (10 R297). -/
def State.nextClass (s : State) : Option Nat :=
  let el (c : Nat) : Bool := (s.nextOf c).isSome
  if el 3 && s.spool.win3 < s.fld Reg.splArb 7 0 then some 3
  else if el 7 && s.spool.win7 < s.fld Reg.splArb 15 8 then some 7
  else rankOrder.find? el

/-- FLAGS of a packet header (10 Table 10.1). -/
def Packet.flags (p : Packet) (resent : Bool) : Byte :=
  BitVec.ofNat 8 ((if resent then 1 else 0) + (if p.bmark then 2 else 0) + (if p.start then 4 else 0) +
    (if p.write then 8 else 0) + (if p.restart then 16 else 0))

/-- The header of a packet (10 Table 10.1). -/
def Packet.header (p : Packet) (cls : Nat) (resent : Bool) : List Byte :=
  leBytes 1 cls ++ leBytes 2 p.payload.length ++ leBytes 4 p.seq ++ [p.flags resent]

/-- What goes on the lane for a packet (10 R291, R292). An upset beyond correction in the spool, at an offset of the
payload, sends the byte as read with the CRC of the closed packet (14 Table 14.4). -/
def Packet.onLane (p : Packet) (cls : Nat) (resent : Bool) (ue : Option (Nat × Byte × WordAt)) : LineItem :=
  let h := p.header cls resent
  let sent := match ue with
    | some (i, b, _) => listSet p.payload i b
    | none => p.payload
  .packet (framedChars k27_7 (h ++ sent ++ leBytes 4 (crc32c (h ++ p.payload)).toNat))

/-- A list of packets with the one of a SEQ replaced. -/
def updPacket (l : List Packet) (seq : Nat) (f : Packet → Packet) : List Packet :=
  l.map fun p => if p.seq == seq then f p else p

/-- Counts a packet start in the present window of 64 (10 R297 step 3). -/
def SpoolState.countStart (w : SpoolState) (c : Nat) : SpoolState :=
  let n := w.winStarts + 1
  if n < 64 then
    { w with winStarts := n, win3 := w.win3 + (if c = 3 then 1 else 0), win7 := w.win7 + (if c = 7 then 1 else 0) }
  else { w with winStarts := 0, win3 := 0, win7 := 0 }

/-- Counts a resend that starts (10 R305). -/
def SpoolClass.countResend (k : SpoolClass) (p : Packet) : SpoolClass :=
  if p.forLoss then { k with rsndLane := satInc 0xFFFF k.rsndLane } else { k with rsndTmo := satInc 0xFFFF k.rsndTmo }

/-- Starts the packet `p` of class `c` on a lane: a new packet takes its credit, a resent one none and is counted; the
fourth resend on timeout sets ACK_STALL (10 R299, R305). -/
def State.startPacket (s : State) (lane c : Nat) (p : Packet) (resent : Bool) (ue : Option (Nat × Byte × WordAt)) : State :=
  let k := s.cls c
  let n := if resent && p.onTmo then p.tmoResends + 1 else p.tmoResends
  let q : Packet := { p with sends := p.sends + 1, lane := lane, sentAt := none, tmoResends := n, onTmo := false }
  let k' : SpoolClass :=
    if resent then
      { k.countResend p with resend := delNat k.resend p.seq, held := updPacket k.held p.seq fun _ => q }
    else { k with
      queue := k.queue.drop 1
      held := k.held ++ [q]
      used := (k.used + p.credits) % 2 ^ 32
      lastSent := some p.seq }
  let t := (s.setCls c k').setLane lane { s.lane lane with job := .packet c p.seq }
  let w := t.spool.countStart c
  let w := if resent && p.forLoss then { w with laneRsnd := satInc 0xFFFFFFFF w.laneRsnd } else w
  let u := { t with spool := w }.sendLane lane (p.onLane c resent ue)
  if resent && p.onTmo && 4 ≤ n then u.event Reg.splStat 4 else u

/-- Queues a held packet for resending, in ascending SEQ order from the Benchmark (10 R305, R297 step 5); one already
queued stays as it is (10 Table 10.4). -/
def SpoolClass.queueResend (k : SpoolClass) (seq : Nat) : SpoolClass :=
  if memNat k.resend seq then k
  else
    let key (q : Nat) : Nat := (q + 2 ^ 32 - (k.bm + 1) % 2 ^ 32) % 2 ^ 32
    let lo := k.resend.filter fun q => key q < key seq
    let hi := k.resend.filter fun q => !(key q < key seq)
    { k with resend := lo ++ [seq] ++ hi }

/-- Queues for resending every held packet of every class last sent on a lane, the one in progress included, and frees
the lane (10 R305 lane loss). -/
def State.resendLane (s : State) (lane : Nat) : State :=
  let one (t : State) (c : Nat) : State :=
    let k := t.cls c
    let hit := k.held.filter fun p => p.lane == lane && !memNat k.resend p.seq
    let k1 := hit.foldl (fun k p => k.queueResend p.seq) k
    t.setCls c { k1 with held := k1.held.map fun p =>
      if p.lane == lane then { p with
        sentAt := none
        forLoss := p.forLoss || !memNat k.resend p.seq
        onTmo := p.onTmo && memNat k.resend p.seq } else p }
  (upto 0 8).foldl one s

/-- Moves the Benchmark of a class to `seq` and releases every packet it covers (10 R303); records that wait may then have
room. -/
def State.release (s : State) (c seq : Nat) : State :=
  let k := s.cls c
  let after (q : Nat) : Bool := decide (0 < sext 32 (q + 2 ^ 32 - seq))
  ((s.setCls c { k with
    bm := seq
    held := k.held.filter fun p => after p.seq
    resend := k.resend.filter after }).placeWaiting c).spoolRetention

/-- Every packet named has been delivered: a Benchmark covers it (10 R304). -/
def State.delivered (s : State) (needs : List (Nat × Nat)) : Bool :=
  needs.all fun (c, q) =>
    let k := s.cls c
    k.lastSent.isSome && decide (sext 32 (q + 2 ^ 32 - k.bm) ≤ 0)

/-- Every condition for writing a committed completion holds (11 R330, R333; 10 R304); one of a LAUNCH_FRAME waits for
the frame's end (09 R289), and an ABORT's until its target's has been released. -/
def State.releasable (s : State) (c : Completion) : Bool :=
  s.delivered c.needs && (upto 2 30).all (fun n => (s.lane n).job != .launch c.ring c.sq) && match c.after with
    | some (r, q) => !((s.ring r).accepted.any fun p => p == (q, false)) &&
        !(s.ctl.stopping.any fun p => p == (r, q)) && !s.ctl.committed.any fun d => d.ring == r && d.sq == q
    | none => true

/-- The completions that may be released leave the committed ones in the order of commit (11 R330). -/
def State.releasePass (s : State) : State :=
  let out := s.ctl.committed.filter s.releasable
  { s with ctl := { s.ctl with
      committed := s.ctl.committed.filter fun c => !s.releasable c
      released := s.ctl.released ++ out } }

/-- Releases every completion that may be released: in a second pass those of ABORTs whose target's was in the first. -/
def State.releaseNow (s : State) : State := s.releasePass.releasePass

/-- SEQ that the open packet of a class will take, or the last one closed. -/
def State.openSeq (s : State) (c : Nat) : Nat :=
  let k := s.cls c
  if k.open_.isSome then k.nextSeq else (k.nextSeq + 2 ^ 32 - 1) % 2 ^ 32

/-- A message body of Table 10.3 with its reserved fields 0. -/
def splBodyOk (ack : Bool) (b : List Byte) : Bool :=
  byteAt b 0 < 8 &&
    if ack then byteAt b 1 < 4 && le b 2 2 == 0 && le b 12 4 == 0
    else le b 1 3 == 0 && le b 8 8 == 0

/-- PACKET_FLUSH: FLUSH crossings after its first byte was placed, the open packet is closed (10 R294, R301). -/
def execPacketFlush (cls : Nat) (s : State) : Host.Outcome State Fault Refusal :=
  match (s.cls cls).open_ with
  | some o =>
    whenDue s (o.firstAt + s.fld1 Reg.splTmr 7 0 ≤ s.time.now) (s.closePacket cls true)
  | none => .next s

/-- A launched frame holds the lane at crossing boundary `x` (02 R75): the target of a LAUNCH_FRAME stake for it, now for
one whose target has come. -/
def State.launchAt (s : State) (lane : Nat) : Option Nat :=
  (s.stakes.filter fun k => k.action == 1 && (match k.frame with
      | some f => byteAt f 0 == lane
      | none => false)).foldl (fun acc k =>
    let d : Int := if k.held then 0 else orbitDiff k.orbit s.time.orbit * s.n + ((k.x : Int) - s.time.cross)
    if 0 ≤ d then
      match acc with
      | some b => some (min b (s.time.now + d.toNat))
      | none => some (s.time.now + d.toNat)
    else acc) none

/-- Nothing started now that lasts `crossings` would still be in progress at a launch on the lane (02 R75). -/
def State.clearFor (s : State) (lane crossings : Nat) : Bool :=
  match s.launchAt lane with
  | some t => s.time.now + 128 < t || s.time.now + crossings ≤ t
  | none => true

/-- The same of `chars` characters on a lane that is UP. -/
def State.clearOfLaunch (s : State) (lane chars : Nat) : Bool := s.clearFor lane (ceilDiv chars 40)

/-- PACKET_START: an UP data lane with nothing in progress starts the next eligible packet (10 R297, R299). An exchange
frame due on the lane goes first. `ue` is an upset beyond correction met in the packet's bytes. -/
def execPacketStart (lane : Nat) (ue : Option (Nat × Byte × WordAt)) (s : State) : Host.Outcome State Fault Refusal :=
  let ok := 2 ≤ lane && lane < 32 && s.laneUp lane && (s.lane lane).job == .idle &&
    bit (s.reg Reg.splCtl) 0 && !(s.xchLane == lane && s.exchangePending)
  match s.nextClass with
  | some c =>
    match s.nextOf c with
    | some (p, r) =>
      whenDue s (ok && s.clearOfLaunch lane (p.payload.length + 14))
        (match ue with
          | some (_, _, w) => (s.sramUe { w with bank := 48 + p.inMacro }).startPacket lane c p r ue
          | none => s.startPacket lane c p r none)
    | none => .next s
  | none => .next s

/-- A packet ends on its lane: the lane is idle and the acknowledgement timer runs (10 R291, R305). -/
def State.endPacket (s : State) (lane c seq : Nat) : State :=
  let k := s.cls c
  (s.setCls c { k with
    held := updPacket k.held seq fun p => { p with sentAt := some s.spool.upTicks } }).setLane lane
    { s.lane lane with job := .idle }

/-- PACKET_SENT: the packet, or the launched frame, in progress on a lane finishes. -/
def execPacketSent (lane : Nat) (s : State) : Host.Outcome State Fault Refusal :=
  match (s.lane lane).job with
  | .packet c q => .next (s.endPacket lane c q)
  | .launch _ _ => .next (s.setLane lane { s.lane lane with job := .idle }).releaseNow
  | .idle => .next s

/-- The credit part of an SPL_ACK: a limit that lies behind the present one has no effect (10 R298). -/
def SpoolClass.raiseLimit (k : SpoolClass) (lim : Nat) : SpoolClass :=
  if sext 32 (lim + 2 ^ 32 - k.limit) < 0 then k else { k with limit := lim }

/-- The acknowledgement part of an SPL_ACK (10 R303). -/
def State.ackSeq (s : State) (c seq : Nat) : State :=
  let k := s.cls c
  if sext 32 (seq + 2 ^ 32 - k.bm) ≤ 0 then s
  else match k.lastSent with
    | some l => if sext 32 (seq + 2 ^ 32 - l) ≤ 0 then (s.release c seq).releaseNow else s.event Reg.splStat 3
    | none => s.event Reg.splStat 3

/-- What an SPL_ACK body does (10 Table 10.3, R298, R303). -/
def State.splAck (s : State) (b : List Byte) : State :=
  if splBodyOk true b then
    let c := byteAt b 0
    let v := byteAt b 1
    let t := if v % 2 = 1 then s.ackSeq c (le b 4 4) else s
    if 2 ≤ v then t.setCls c ((t.cls c).raiseLimit (le b 8 4)) else t
  else s.countFld Reg.splStat 31 16

/-- What an SPL_NAK body does (10 R305, Table 10.4). -/
def State.splNak (s : State) (b : List Byte) : State :=
  if splBodyOk false b then
    let c := byteAt b 0
    let q := le b 4 4
    let k := s.cls c
    if bit (s.reg Reg.splCtl) 1 && !memNat k.resend q && k.held.any fun p => p.seq == q && p.sentAt.isSome then
      let k1 := k.queueResend q
      s.setCls c { k1 with held := updPacket k1.held q fun p => { p with forLoss := false, onTmo := false } }
    else s
  else s.countFld Reg.splStat 31 16

/-- SPL_ACK. -/
def execSplAck (body : List Byte) (s : State) : Host.Outcome State Fault Refusal := .next (s.splAck body)

/-- SPL_NAK. -/
def execSplNak (body : List Byte) (s : State) : Host.Outcome State Fault Refusal := .next (s.splNak body)

/-- The timer of a held packet has run out (10 R305). -/
def State.ackDue (s : State) (cls seq : Nat) : Bool :=
  let k := s.cls cls
  s.anyDataUp && !memNat k.resend seq && k.held.any fun p =>
    p.seq == seq && match p.sentAt with
      | some t => t + 64 * s.fld1 Reg.splTmr 31 16 ≤ s.spool.upTicks
      | none => false

/-- A packet is queued for resending on timeout (10 R305). -/
def State.ackTimeout (s : State) (cls seq : Nat) : State :=
  let k1 := (s.cls cls).queueResend seq
  s.setCls cls { k1 with held := updPacket k1.held seq fun p => { p with onTmo := true, forLoss := false } }

/-- ACK_TIMEOUT: ACK_TMO crossings without a covering Benchmark (10 R305). -/
def execAckTimeout (cls seq : Nat) (s : State) : Host.Outcome State Fault Refusal :=
  whenDue s (s.ackDue cls seq) (s.ackTimeout cls seq)

end Sys2Proof.Machine
end

