-- ==== Sys2Proof/Machine/Ctl.lean ====
section
/-!
DEFINITION. The control rings (11): reads of host memory, fetching, acceptance, completions. The commands that rest on
the operations of other chapters are in Machine/Rings.lean.
-/

namespace Sys2Proof.Machine

open Sys2Proof

/-- Status codes of completions (11 Table 11.9). -/
def Status.ok : Nat := 0x00
def Status.alreadyDone : Nat := 0x01
def Status.aborted : Nat := 0x02
def Status.notFound : Nat := 0x03
def Status.late : Nat := 0x10
def Status.ranLate : Nat := 0x11
def Status.tooFar : Nat := 0x12
def Status.partial_ : Nat := 0x20
def Status.evicted : Nat := 0x21
def Status.outputShort : Nat := 0x22
def Status.futureTimeout : Nat := 0x23
def Status.hdrReject : Nat := 0x30
def Status.sigFail : Nat := 0x31
def Status.busyOther : Nat := 0x32
def Status.imageMismatch : Nat := 0x33
def Status.fallback : Nat := 0x34
def Status.badDescriptor : Nat := 0x40
def Status.badAddress : Nat := 0x41
def Status.unsupported : Nat := 0x42
def Status.noSlot : Nat := 0x50
def Status.dataError : Nat := 0x60
def Status.sliceFault : Nat := 0x61
def Status.openInput : Nat := 0x62

/-- STATE of a ring: 0 IDLE, 1 ACTIVE, 2 DRAINING, 3 ERROR (11 R334). -/
def State.ringState (s : State) (r : Nat) : Nat := (s.ring r).st

/-- SQ_LOG2 and CQ_LOG2 as they act (11 Table 11.13). -/
def State.sqLog2 (s : State) (r : Nat) : Nat := min 12 (max 4 (s.fld (Reg.ctlCfg r) 3 0))
def State.cqLog2 (s : State) (r : Nat) : Nat := min 12 (max 4 (s.fld (Reg.ctlCfg r) 7 4))

/-- A ring is enabled: ACTIVE, or in ERROR and not disabled since (11 R323, R334). -/
def State.ringOn (s : State) (r : Nat) : Bool :=
  (s.ring r).st == 1 || ((s.ring r).st == 3 && bit (s.reg (Reg.ctlCfg r)) 16)

/-- A 64-bit stored register. -/
def State.reg64 (s : State) (a : Nat) : Nat := (s.reg a).toNat + 2 ^ 32 * (s.reg (a + 4)).toNat

/-- `(a - b)` modulo 2¹⁶. -/
def sub16 (a b : Nat) : Nat := (a + 65536 - b % 65536) % 65536

/-- Descriptors of ring `r` that outstanding fetch reads cover. -/
def State.fetching (s : State) (r : Nat) : Nat :=
  (s.ctl.reads.map fun q => match q.use with
    | .fetch r' _ n _ => if r' = r then n else 0
    | _ => 0).foldl (· + ·) 0

/-- INFLIGHT of a ring: from the issue of the fetch read until the completion is written, since each holds an entry in reserve
till then (11 R320, R322; notes/assumptions/87.md). Another head's completion holds one too. -/
def State.inflight (s : State) (r : Nat) : Nat :=
  s.fetching r + (s.ring r).fetched.length + (s.ring r).accepted.length +
    ((s.ctl.committed ++ s.ctl.released).filter fun c => c.extra && c.ring == r).length

/-- Operations in flight over all rings (11 R322). -/
def State.inflightAll (s : State) : Nat := ((upto 0 32).map s.inflight).foldl (· + ·) 0

/-- R320 leaves room for this many more descriptors. -/
def State.cqRoom (s : State) (r : Nat) : Nat :=
  2 ^ s.cqLog2 r - (s.inflight r + sub16 (s.ring r).write (s.ring r).head)

/-- The next RTAG: in rising order, skipping tags outstanding (11 R315). -/
def State.freeTag (s : State) : Nat :=
  ((upto 0 65).map fun i => (s.ctl.nextTag + i) % 65536).find? (fun t => !s.ctl.reads.any fun q => q.rtag == t)
    |>.getD s.ctl.nextTag

/-- Issues a read of host memory (11 R314, R315). -/
def State.issueRead (s : State) (addr len : Nat) (use : ReadUse) : State :=
  let tag := s.freeTag
  let q : HostRead := ⟨tag, addr, len, use, [], s.time.now, 0⟩
  let t := s.placeRead tag addr len
  { t with ctl := { t.ctl with reads := t.ctl.reads ++ [q], nextTag := (tag + 1) % 65536 } }

/-- Fewer than 64 reads outstanding, and the class-0 share takes a read item. -/
def State.readFree (s : State) : Bool := s.ctl.reads.length < 64 && s.canRead

/-- Class-0 credit takes `n` more bytes beside what is queued and open (11 R321, R331). -/
def State.creditRoom (s : State) (n : Nat) : Bool :=
  let k := s.cls 0
  let queued := (k.queue.map Packet.credits).foldl (· + ·) 0
  let o := match k.open_ with | some o => o.bytes.length | none => 0
  decide (((queued + ceilDiv (o + n) 256 : Nat) : Int) ≤ sext 32 (k.limit + 2 ^ 32 - k.used % 2 ^ 32))

/-- A fence holds the head descriptor of a ring: FENCE until every earlier one of its ring is released, GFENCE until
every one accepted earlier on any ring is; a mark lifts it (11 R326, R332). -/
def State.fenceHolds (s : State) (r : Nat) (f : Fetched) : Bool :=
  let fl := byteAt f.bytes 1
  !memNat (s.ring r).marked f.sq &&
    ((fl % 2 == 1 && !(s.ring r).accepted.isEmpty) ||
      (fl / 2 % 2 == 1 && (upto 0 32).any fun q => !(s.ring q).accepted.isEmpty))

/-- The descriptor of a ring that is next in index order, when its fetch read has completed (11 R321). -/
def State.headDesc (s : State) (r : Nat) : Option Fetched :=
  match (s.ring r).fetched with
  | [] => none
  | f :: _ =>
    if s.ctl.reads.any fun q => match q.use with
        | .fetch r' _ _ ord => r' == r && ord < f.ord
        | _ => false
    then none else some f

/-- FENCE_WAIT of a ring (11 R326). -/
def State.fenceWait (s : State) (r : Nat) : Bool :=
  match s.headDesc r with
  | some f => s.fenceHolds r f
  | none => false

/-- An engine serves: it has started and is not in a restart (01 R28, 15 R435). -/
def State.engineUp (s : State) (k : Nat) : Bool := (s.engine k).running && !(s.engine k).restarting

/-- E0 serves (11 R331). -/
def State.e0Up (s : State) : Bool := s.engineUp 0

/-- Reads that a descriptor needs before its acceptance are outstanding (07 R215, R216; 15 R426). -/
def State.prepWaits (s : State) (r sq : Nat) : Bool :=
  s.ctl.reads.any fun q => match q.use with
    | .chain r' k => r' == r && k == sq
    | .mask r' k => r' == r && k == sq
    | .fwHeader r' k => r' == r && k == sq
    | _ => false

/-- What has been read for a descriptor before its acceptance. -/
def State.prepOf (s : State) (r sq : Nat) : Option Prep := s.ctl.preps.find? fun p => p.ring == r && p.sq == sq

/-- Every descriptor of ring `q` that is fetched or being fetched and still to be accepted comes after position `ord` of
fetch order. Those of a ring that is disabled are not accepted (11 R334). -/
def State.fetchedAfter (s : State) (q ord : Nat) : Bool :=
  ((s.ring q).fetched.all fun g => ord ≤ g.ord) && (!s.ringOn q || s.ctl.reads.all fun d => match d.use with
    | .fetch q' _ _ o => q' != q || ord ≤ o
    | _ => true)

/-- The head descriptor of ring `r` is the next to be accepted: no fence holds it, its own reads are not outstanding, and
no other ring without a fence that holds it has one earlier in fetch order (11 R325, R326; notes/assumptions/10.md). -/
def State.acceptNext (s : State) (r : Nat) : Option Fetched :=
  match s.headDesc r with
  | some f =>
    if s.e0Up && !s.fenceHolds r f && !s.prepWaits r f.sq &&
        (upto 0 32).all fun q => s.fenceWait q || s.fetchedAfter q f.ord
    then some f else none
  | none => none

/-- The completion of an operation as committed (11 R328, R330); it carries RESUMED when its work has been in progress on an
engine that restarted (15 R420). -/
def State.commit (s : State) (r sq status : Nat) (tag : Word) (resumed : Bool) (result : List Byte)
    (needs : List (Nat × Nat)) (after : Option (Nat × Nat)) : State :=
  let g := s.ring r
  let c : Completion := {
    ring := r, sq := sq, status := BitVec.ofNat 8 status, tag := tag
    commitX := s.time.xcount
    quality := BitVec.ofNat 8 s.quality
    resumed := resumed || s.ctl.resumed.any fun p => p == (r, sq)
    result := (result ++ List.replicate 16 0).take 16
    needs := needs, after := after, extra := false }
  let t := s.setRing r { g with accepted := g.accepted.map fun p => if p.1 == sq then (sq, true) else p }
  { t with ctl := { t.ctl with
      committed := t.ctl.committed ++ [c]
      stopping := t.ctl.stopping.filter fun p => p != (r, sq)
      resumed := t.ctl.resumed.filter fun p => p != (r, sq) } }.releaseNow

/-- Commits with nothing to report and nothing to wait for. -/
def State.finish (s : State) (r : Nat) (f : Fetched) (status : Nat) : State :=
  s.commit r f.sq status (BitVec.ofNat 32 (le f.bytes 4 4)) false [] [] none

/-- Byte `i` of a descriptor's body. -/
def Fetched.body (f : Fetched) (i n : Nat) : Nat := le f.bytes (16 + i) n

/-- The host's TAG. -/
def Fetched.tag (f : Fetched) : Word := BitVec.ofNat 32 (le f.bytes 4 4)

/-- The opcode. -/
def Fetched.opcode (f : Fetched) : Nat := byteAt f.bytes 0

/-- Body bytes `a` to `a + n - 1` are all 0. -/
def Fetched.zero (f : Fetched) (a n : Nat) : Bool := allZero (bytesAt f.bytes (16 + a) n)

/-- The reserved bits of the header are 0 (11 Table 11.5). -/
def Fetched.headerOk (f : Fetched) : Bool :=
  byteAt f.bytes 1 < 4 && le f.bytes 2 2 == 0 && le f.bytes 8 8 == 0

/-- Takes the head descriptor of a ring: it is accepted and not committed. -/
def State.takeHead (s : State) (r : Nat) (f : Fetched) : State :=
  let g := s.ring r
  let t := s.setRing r { g with
    fetched := g.fetched.drop 1
    accepted := g.accepted ++ [(f.sq, false)]
    marked := delNat g.marked f.sq }
  { t with ctl := { t.ctl with
      nextOid := t.ctl.nextOid + 1
      preps := t.ctl.preps.filter fun p => !(p.ring == r && p.sq == f.sq) } }

/-- Acceptance of the head descriptor of a ring (11 R325): a marked one completes ABORTED, a reserved header bit
completes BAD_DESCRIPTOR, else `run` does the opcode's own checks and work. -/
def State.acceptRun (s : State) (r : Nat) (f : Fetched) (run : Fetched → State → State) : State :=
  let t := s.takeHead r f
  if memNat (s.ring r).marked f.sq then t.finish r f Status.aborted
  else if !f.headerOk then t.finish r f Status.badDescriptor
  else run f t

/-- A descriptor command: due when the head descriptor of the ring is next and has an opcode of `ops`. -/
def acceptDesc (r : Nat) (ops : Nat → Bool) (run : Fetched → State → State) (s : State) :
    Host.Outcome State Fault Refusal :=
  match s.acceptNext r with
  | some f => whenDue s (ops f.opcode) (s.acceptRun r f run)
  | none => .next s

/-- Opcodes that a chapter assigns an operation to (11 Table 11.6; 13 R387, R388; 14 R405, R412, R414; 15 Table 15.4;
12 R358). -/
def opcodeAssigned (op : Nat) : Bool :=
  memNat [0x00, 0x01, 0x02, 0x10, 0x20, 0x21, 0x30, 0x31, 0x40, 0x41, 0x42, 0x43, 0x44, 0x48, 0x49,
    0x50, 0x51, 0x52, 0x60, 0x61, 0x62] op

/-- Whether a ring may take a fetch turn (11 R321). -/
def State.fetchable (s : State) (r : Nat) : Bool :=
  bit (s.reg Reg.ctlCtl) 0 && s.ringState r == 1 && (s.ring r).tail != (s.ring r).fetch && 0 < s.cqRoom r &&
    !s.fenceWait r && s.inflightAll < 256 && s.readFree && s.creditRoom 16 &&
    (s.ctl.reads.filter fun q => match q.use with
      | .fetch r' _ _ _ => r' == r
      | _ => false).length < 4

/-- PRIO of a ring. -/
def State.prio (s : State) (r : Nat) : Nat := s.fld (Reg.ctlCfg r) 9 8

/-- The rings in round-robin order after the last one served. -/
def rrOrder (last : Nat) : List Nat := (upto 1 32).map fun i => (last + i) % 32

/-- The ring that is served next: the highest PRIO, round robin among equals; a ring whose turn is not used up goes on
(11 R321). -/
def State.fetchRing (s : State) : Option Nat :=
  let pick (p : Nat) : Option Nat :=
    let last := (s.ctl.lastServed.drop p).head?.getD 31
    let ok (r : Nat) : Bool := s.fetchable r && s.prio r == p
    if ok last && 0 < (s.ring last).turn then some last else (rrOrder last).find? ok
  [3, 2, 1, 0].findSome? pick

/-- FETCH_MAX as it acts (11 Table 11.11). -/
def State.fetchMax (s : State) : Nat := min 4 (max 1 (s.fld Reg.ctlCtl 10 8))

/-- Issues one fetch read for a ring (11 R321). -/
def State.fetchFrom (s : State) (r : Nat) : State :=
  let g := s.ring r
  let p := s.prio r
  let last := (s.ctl.lastServed.drop p).head?.getD 31
  let weight := s.fld (Reg.ctlCfg r) 15 12 + 1
  let left := if last = r ∧ 0 < g.turn then g.turn else weight
  let size := 2 ^ s.sqLog2 r
  let i := g.fetch % size
  let n := min left (min s.fetchMax (min (sub16 g.tail g.fetch) (min (size - i)
    (min (s.cqRoom r) (256 - s.inflightAll)))))
  let t := s.issueRead (s.reg64 (Reg.ctlSqBase r) + 64 * i) (64 * n) (.fetch r g.fetch n s.ctl.fetchOrd)
  let t := t.setRing r { g with fetch := (g.fetch + n) % 65536, turn := left - n }
  { t with ctl := { t.ctl with
      lastServed := listSet t.ctl.lastServed p r
      fetchOrd := t.ctl.fetchOrd + n } }

/-- DESCRIPTOR_FETCH: the hub issues a read that fetches descriptors from the ring that is served next. -/
def execDescriptorFetch (s : State) : Host.Outcome State Fault Refusal :=
  match s.fetchRing with
  | some r => whenDue s s.e0Up (s.fetchFrom r)
  | none => .next s

/-- Puts fetched descriptors in order of their fetching. -/
def insFetched : List Fetched → Fetched → List Fetched
  | [], f => [f]
  | h :: t, f => if f.ord < h.ord then f :: h :: t else h :: insFetched t f

/-- The bytes of a complete read. -/
def HostRead.bytes (q : HostRead) : List Byte :=
  (upto 0 q.len).map fun i => (tabGet none q.data i).getD 0

/-- A ring that drains has nothing left in flight: it is IDLE (11 R334). -/
def State.ringIdle (s : State) (r : Nat) : State :=
  if s.ringState r == 2 && s.inflight r == 0 then s.setRing r { s.ring r with st := 0 } else s

/-- Descriptor `sq` of a ring is in a fetch read that is outstanding. -/
def State.inFetch (s : State) (r sq : Nat) : Bool :=
  s.ctl.reads.any fun q => match q.use with
    | .fetch r' first n _ => r' == r && sub16 sq first < n
    | _ => false

/-- RESULT of an ABORT: its target (11 R332). -/
def abortResult (tr tq : Nat) : List Byte := leBytes 1 tr ++ leBytes 1 0 ++ leBytes 2 tq

/-- The ABORTs that wait for a target, by which `st` gives their status, complete (11 R332). -/
def State.endAborts (s : State) (st : AbortWait → Option Nat) : State :=
  s.ctl.aborts.foldl (fun t a => match st a with
    | some v => { t with ctl := { t.ctl with aborts := t.ctl.aborts.filter (· != a) } }.commit a.ring a.sq v a.tag false
        (abortResult a.targetRing a.targetSq) [] none
    | none => t) s

/-- A ring fetches no more: the ABORTs whose targets it would still have had to fetch complete OK, their targets run nothing. -/
def State.endAbortsOf (s : State) (r : Nat) : State :=
  s.endAborts fun a => if a.targetRing = r ∧ !s.inFetch r a.targetSq then some Status.ok else none

/-- A fetch read completes: its descriptors wait for acceptance, or complete ABORTED when the ring has been disabled
(11 R321, R334). ABORTs that wait for one of them complete: OK, or UNSUPPORTED when it is an ABORT, which loses its mark (11 R332). -/
def State.fetchDone (s : State) (r first n ord : Nat) (bytes : List Byte) : State :=
  (upto 0 n).foldl (fun t i =>
    let f : Fetched := ⟨(first + i) % 65536, bytesAt bytes (64 * i) 64, ord + i⟩
    let g := t.ring r
    let g1 : Ring := { g with
      recent := ((f.sq, f.opcode) :: g.recent).take (2 ^ t.sqLog2 r)
      marked := if f.opcode = 0x01 then delNat g.marked f.sq else g.marked }
    let t := if t.ringOn r then t.setRing r { g1 with fetched := insFetched g1.fetched f }
      else (t.setRing r { g1 with accepted := g1.accepted ++ [(f.sq, false)] }).finish r f Status.aborted
    t.endAborts fun a =>
      if a.targetRing = r ∧ a.targetSq = f.sq then some (if f.opcode = 0x01 then Status.unsupported else Status.ok) else none) s

/-- A fetch read fails: the ring enters ERROR, a draining one too (11 R323). -/
def State.fetchFailed (s : State) (r first : Nat) : State :=
  let g := s.ring r
  let t := s.setRing r { g with st := if g.st = 0 then 0 else 3, accepted := g.accepted ++ [(first, false)] }
  (((t.event (Reg.ctlRstat r) 24).event Reg.ctlStat 4).commit r first Status.badAddress 0 false [] [] none).endAbortsOf r

/-- The completion entry as written to host memory (11 Table 11.7). -/
def Completion.entry (c : Completion) (phase : Bool) : List Byte :=
  leBytes 2 c.sq ++ leBytes 1 (c.ring + (if phase then 128 else 0)) ++ [c.status] ++ leBytes 4 c.tag.toNat ++
    leBytes 6 c.commitX ++ [c.quality] ++ leBytes 1 (if c.resumed then 1 else 0) ++ c.result

/-- PHASE of completion entry `i` of a ring of 2^log2 entries (11 R319). -/
def cqPhase (log2 i : Nat) : Bool := i / 2 ^ log2 % 2 == 0

/-- Writes a completion at the ring's WRITE index and ends the operation (11 R330). -/
def State.writeCompletion (s : State) (c : Completion) : State :=
  let r := c.ring
  let g := s.ring r
  let log2 := s.cqLog2 r
  let a := s.reg64 (Reg.ctlCqBase r) + 32 * (g.write % 2 ^ log2)
  let t := s.hostWrite 0 a (c.entry (cqPhase log2 g.write))
  let t := t.setRing r { t.ring r with
    write := (g.write + 1) % 65536
    accepted := if c.extra then (t.ring r).accepted else (t.ring r).accepted.filter fun p => p.1 != c.sq }
  t.ringIdle r

/-- COMPLETION_RELEASE: the completion released first is written at the ring's WRITE index, when class-0 credit and share
take it (11 R330, R331). -/
def execCompletionRelease (s : State) : Host.Outcome State Fault Refusal :=
  match s.ctl.released with
  | c :: rest =>
    let t := { s with ctl := { s.ctl with released := rest } }
    match t.tryShare 0 0 (·.writeCompletion c) with
    | some u => whenDue s (s.e0Up && s.creditRoom 48) u
    | none => .next s
  | [] => .next s

/-- DESCRIPTOR_RESERVED: an opcode that is reserved or that its chapter does not assign completes UNSUPPORTED (11 R325). -/
def execDescriptorReserved (ring : Nat) (s : State) : Host.Outcome State Fault Refusal :=
  match s.acceptNext ring with
  | some f =>
    whenDue s (!opcodeAssigned f.opcode)
      (let t := s.takeHead ring f
       if memNat (s.ring ring).marked f.sq then t.finish ring f Status.aborted
       else t.finish ring f Status.unsupported)
  | none => .next s

/-- NOP: completes OK; the body must be 0 (11 Table 11.6). -/
def execNop (ring : Nat) (s : State) : Host.Outcome State Fault Refusal :=
  acceptDesc ring (· == 0x00)
    (fun f t => t.finish ring f (if f.zero 0 48 then Status.ok else Status.badDescriptor)) s

/-- What an accepted TIE_READ does (11 R325). -/
def State.tieRead (s : State) (r : Nat) (f : Fetched) : State :=
  let count := f.body 0 1
  let addr := f.body 8 8
  let len := f.body 16 4
  if count = 0 ∨ 64 < count ∨ len % 8 ≠ 0 ∨ len < 48 * count ∨ !f.zero 1 7 ∨ !f.zero 20 28 then
    s.finish r f Status.badDescriptor
  else if addr % 8 ≠ 0 then s.finish r f Status.badAddress
  else
    let recs := (s.ties.take count).reverse
    let data := recs.flatMap (·.bytes)
    let t := s.hostWrite 7 addr data
    let newest := match s.ties with
      | h :: _ => h.bytes.take 8
      | [] => List.replicate 8 0
    let needs := if recs.isEmpty then [] else [(7, t.openSeq 7)]
    t.commit r f.sq Status.ok f.tag false (leBytes 1 recs.length ++ List.replicate 7 0 ++ newest) needs none

/-- TIE_READ: writes the newest held tie records, oldest first, as class-7 WRITE items; it waits while the class-7 share
cannot take them (10 Table 10.5). -/
def execTieRead (ring : Nat) (s : State) : Host.Outcome State Fault Refusal :=
  match s.acceptNext ring with
  | some f =>
    match s.tryShare 7 0 fun t => t.acceptRun ring f fun f t => t.tieRead ring f with
    | some t => whenDue s (f.opcode == 0x02) t
    | none => .next s
  | none => .next s

/-- What a doorbell body does (11 R317). -/
def State.doorbell (s : State) (b : List Byte) : State :=
  let b0 := byteAt b 0
  let r := b0 % 32
  let idx := le b 1 2
  let g := s.ring r
  let bad (t : State) : State :=
    let u := (t.event Reg.ctlStat 2).event (Reg.ctlRstat r) 25
    { u with ctl := { u.ctl with dbBad := satInc 0xFFFF u.ctl.dbBad } }
  if !s.ringOn r ∨ b0 / 32 % 4 ≠ 0 then bad s
  else if b0 < 128 then
    if sub16 idx g.fetch ≤ 2 ^ s.sqLog2 r then s.setRing r { g with tail := idx } else bad s
  else if sub16 idx g.head ≤ sub16 g.write g.head then s.setRing r { g with head := idx }
  else bad s

/-- DOORBELL. -/
def execDoorbell (body : List Byte) (s : State) : Host.Outcome State Fault Refusal := .next (s.doorbell body)

/-- A ring is enabled or disabled by a write to its CFG (11 R334). The word is written by the register page; here is
what EN does to the ring. What was read for a descriptor that completes ABORTED goes with it. -/
def State.ringEnable (s : State) (r : Nat) (en : Bool) : State :=
  let g := s.ring r
  if en then
    if g.st = 0 then s.setRing r { Ring.init with st := 1 } else s
  else if g.st = 1 ∨ g.st = 3 then
    let t := s.setRing r { g with st := 2, fetched := [], accepted := g.accepted ++ g.fetched.map fun f => (f.sq, false) }
    let t := { t with ctl := { t.ctl with
      preps := t.ctl.preps.filter fun p => p.ring != r
      reads := t.ctl.reads.filter fun q => match q.use with
        | .chain r' _ | .mask r' _ | .fwHeader r' _ => r' != r
        | _ => true } }
    ((g.fetched.foldl (fun t f => t.finish r f Status.aborted) t).endAbortsOf r).ringIdle r
  else s

end Sys2Proof.Machine
end

