-- ==== Sys2Proof/Machine/Codec.lean ====
section
/-!
DEFINITION. The token coding of channel streams (08 R245 to R254): the hub's encoder (R258) and the decoder (R259).
-/

namespace Sys2Proof.Machine

open Sys2Proof

/-- The state of a coder (08 R245). -/
structure Coder where
  t : Nat
  last : Nat
  h1 : Nat
  h2 : Nat
  h3 : Nat
  h4 : Nat
  a : Nat
  nc : Nat
  deriving DecidableEq, Repr

/-- The reset state. -/
def Coder.init : Coder := ⟨0xC, 0xC000, 0, 0, 0, 0, 8, 1⟩

/-- A container is produced. -/
def Coder.produce (s : Coder) (c : Nat) : Coder :=
  { s with last := c, h1 := c % 4096, h2 := s.h1, h3 := s.h2, h4 := s.h3 }

/-- Containers produced by a RUN or COPY token: T is set to the tag of the last one. -/
def Coder.produceAll (s : Coder) (cs : List Nat) : Coder :=
  let u := cs.foldl Coder.produce s
  if cs.isEmpty then u else { u with t := u.last / 4096 }

/-- The prediction of an order (08 R250). -/
def Coder.predict (s : Coder) (ord : Nat) : Nat :=
  match ord with
  | 0 => s.h4
  | 1 => s.h1
  | _ => min 4095 (2 * s.h1 - s.h2)

/-- The Rice parameter (08 R251). -/
def riceK (a nc : Nat) : Nat := ((upto 0 13).find? fun k => a ≤ nc * 2 ^ k).getD 12

/-- A and NC after a RESID sample. -/
def Coder.rice (s : Coder) (u : Nat) : Coder :=
  if s.nc + 1 = 64 then { s with a := (s.a + u) / 2, nc := 32 } else { s with a := s.a + u, nc := s.nc + 1 }

/-- The map of a residual. -/
def mapRes (p code : Nat) : Nat := if p ≤ code then 2 * (code - p) else 2 * (p - code) - 1

/-- `n` bits of a number, most significant first. -/
def bitsMsb (n v : Nat) : List Bool := (upto 0 n).map fun i => Nat.testBit v (n - 1 - i)

/-- One sample under an order: its bits and the state after it; none when q is above 16. -/
def Coder.resid (s : Coder) (ord c : Nat) : Option (List Bool × Coder) :=
  let u := mapRes (s.predict ord) (c % 4096)
  let k := riceK s.a s.nc
  let q := u / 2 ^ k
  if 16 < q then none
  else some (List.replicate q true ++ false :: bitsMsb k u, (s.produce c).rice u)

/-- A group under an order. -/
def Coder.residAll (s : Coder) (ord : Nat) : List Nat → Option (List Bool × Coder)
  | [] => some ([], s)
  | c :: t =>
    match s.resid ord c with
    | some (b, s1) =>
      match s1.residAll ord t with
      | some (bs, s2) => some (b ++ bs, s2)
      | none => none
    | none => none

/-- A byte from its bits, bit 7 first; missing bits are 0. -/
def byteOf (bs : List Bool) : Byte :=
  BitVec.ofNat 8 ((bs.zip (upto 0 8)).foldl (fun n (b, i) => if b then n + 2 ^ (7 - i) else n) 0)

/-- Bits filled into bytes (08 R253), `n` bytes. -/
def packBits : Nat → List Bool → List Byte
  | 0, _ => []
  | n + 1, bs => byteOf (bs.take 8) :: packBits n (bs.drop 8)

/-- Bits of a token's data bytes. -/
def packed (bs : List Bool) : List Byte := packBits (ceilDiv bs.length 8) bs

/-- A token and the containers it produces. -/
structure Token where
  bytes : List Byte
  n : Nat
  deriving DecidableEq, Repr

/-- Leading elements equal to `v`, at most `m`. -/
def runLen (v m : Nat) : List Nat → Nat
  | [] => 0
  | x :: t => if m = 0 then 0 else if x = v then 1 + runLen v (m - 1) t else 0

/-- How far two lists agree. -/
def agree : List Nat → List Nat → Nat
  | x :: t, y :: u => if x = y then 1 + agree t u else 0
  | _, _ => 0

/-- The group of R258: at most `m` samples of tag `t`, ending before a sample that begins three equal to its forerunner. -/
def groupOf (t : Nat) : Nat → Nat → List Nat → List Nat
  | 0, _, _ => []
  | m + 1, prev, x :: r =>
    let three := match r with
      | y :: z :: _ => x == prev && y == prev && z == prev
      | _ => false
    if x / 4096 = t ∧ !three then x :: groupOf t m x r else []
  | _ + 1, _, [] => []

/-- The group that begins with the first sample. -/
def groupFrom (t : Nat) : List Nat → List Nat
  | x :: r => x :: groupOf t 31 x r
  | [] => []

/-- The samples up to the first that some order can code (08 R258). -/
def rawUpTo (ords : List Nat) (s : Coder) : List Nat → List Nat
  | [] => []
  | x :: r => if ords.any fun o => (s.resid o x).isSome then [] else x :: rawUpTo ords (s.produce x) r

/-- The samples of a RAW token: up to the first that some order can code, at least one (08 R258). -/
def rawPart (ords : List Nat) (s : Coder) (g : List Nat) : List Nat := g.take (max 1 (rawUpTo ords s g).length)

/-- The cheapest order for a group, the lowest on a tie. -/
def cheapest (ords : List Nat) (s : Coder) (g : List Nat) : Option (Nat × List Bool × Coder) :=
  ords.foldl (fun acc o => match s.residAll o g with
    | some (b, s1) =>
      match acc with
      | some (p, c, q) => if b.length < c.length then some (o, b, s1) else some (p, c, q)
      | none => some (o, b, s1)
    | none => acc) none

/-- The orders that CMP_CTL.ORD_EN allows; 000 acts as 010 (08 Table 8.6). -/
def ordsOf (ctl : Word) : List Nat :=
  let m := bits ctl 3 1
  (upto 0 3).filter fun o => Nat.testBit (if m = 0 then 2 else m) o

/-- The longest match at a distance of CMP_COPY_DIST: its length and distance, the first distance on a tie. -/
def bestMatch (xs : List Nat) (n : Nat) (dists : List Nat) : Nat × Nat :=
  dists.foldl (fun (m, d) e =>
    if e = 0 ∨ n < e then (m, d)
    else
      let k := agree (xs.drop n) (xs.drop (n - e))
      if m < k then (k, e) else (m, d)) (0, 0)

/-- A two-byte token head with a 10-bit count. -/
def head10 (base n : Nat) : List Byte := [BitVec.ofNat 8 (base + (n - 1) / 256), BitVec.ofNat 8 (n - 1)]

/-- The hub's encoder from sample `n` on (08 R258), with `fuel` tokens at most. -/
def encodeFrom (copyEn : Bool) (ords dists : List Nat) (xs : List Nat) : Nat → Nat → Coder → List Token
  | 0, _, _ => []
  | fuel + 1, n, s =>
    let rest := xs.drop n
    match rest with
    | [] => []
    | x :: _ =>
      let r := runLen s.last 1024 rest
      let (m, d) := bestMatch xs n dists
      if 3 ≤ r then
        ⟨head10 0x20 r, r⟩ :: encodeFrom copyEn ords dists xs fuel (n + r) (s.produceAll (rest.take r))
      else if copyEn ∧ 4 ≤ m then
        let m := min m 1024
        ⟨head10 0x30 m ++ leBytes 2 d, m⟩ :: encodeFrom copyEn ords dists xs fuel (n + m) (s.produceAll (rest.take m))
      else if x / 4096 ≠ s.t then
        ⟨[BitVec.ofNat 8 (0x10 + x / 4096)], 0⟩ :: encodeFrom copyEn ords dists xs fuel n { s with t := x / 4096 }
      else
        let g := groupFrom s.t rest
        match cheapest ords s g with
        | some (o, b, s1) =>
          ⟨BitVec.ofNat 8 (0x40 + 16 * o) :: BitVec.ofNat 8 (g.length - 1) :: packed b, g.length⟩ ::
            encodeFrom copyEn ords dists xs fuel (n + g.length) s1
        | none =>
          let w := rawPart ords s g
          ⟨0x80 :: BitVec.ofNat 8 (w.length - 1) :: packed (w.flatMap fun c => bitsMsb 12 (c % 4096)), w.length⟩ ::
            encodeFrom copyEn ords dists xs fuel (n + w.length) (w.foldl Coder.produce s)

/-- The tokens of one channel stream under settings CMP_CTL and CMP_COPY_DIST (08 R258). -/
def encodeStream (ctl dist : Word) (xs : List Nat) : List Token :=
  encodeFrom (bit ctl 4) (ordsOf ctl) [bits dist 9 0, bits dist 25 16] xs (2 * xs.length + 1) 0 Coder.init

/-- Bytes of tokens joined. -/
def tokenBytes (ts : List Token) : List Byte := ts.flatMap (·.bytes)

/-! ### The decoder -/

/-- Error kinds (08 Table 8.3). -/
inductive CodeErr where
  | header
  | check
  | illegal
  | distance
  | length
  deriving DecidableEq, Repr

/-- KIND (08 Table 8.3). -/
def CodeErr.kind : CodeErr → Nat
  | .header => 1
  | .check => 2
  | .illegal => 3
  | .distance => 4
  | .length => 5

/-- A stream being decoded: coder state, containers produced (newest first). -/
structure Decode where
  st : Coder
  out : List Nat
  deriving DecidableEq, Repr

/-- What a token does: the containers produced and the bytes consumed, or an error. -/
inductive TokenRes where
  | ok (d : Decode) (used : Nat)
  | err (e : CodeErr)
  deriving DecidableEq, Repr

/-- Leading one-bits, at most 17. -/
def onesOf : Nat → List Bool → Nat
  | 0, _ => 0
  | m + 1, true :: t => 1 + onesOf m t
  | _ + 1, _ => 0

/-- A number from its bits, most significant first. -/
def ofBits (bs : List Bool) : Nat := bs.foldl (fun n b => 2 * n + (if b then 1 else 0)) 0

/-- A container of tag T and a code that the tag allows (08 R250, R252). -/
def tagCode (t : Nat) (code : Int) : Option Nat :=
  if code < 0 ∨ 4095 < code ∨ (t = 0xC ∧ code ≠ 0) then none else some (t * 4096 + code.toNat)

/-- `n` RESID samples from bits; the bits left over. -/
def decodeResid (ord : Nat) : Nat → List Bool → Decode → Except CodeErr (Decode × List Bool)
  | 0, bs, d => .ok (d, bs)
  | n + 1, bs, d =>
    let k := riceK d.st.a d.st.nc
    let q := onesOf 17 bs
    if q = 17 then .error .illegal
    else if bs.length < q + 1 + k then .error .length
    else
      let u := q * 2 ^ k + ofBits ((bs.drop (q + 1)).take k)
      let e : Int := if u % 2 = 0 then (u / 2 : Nat) else -((u + 1) / 2 : Nat)
      match tagCode d.st.t ((d.st.predict ord : Int) + e) with
      | some c => decodeResid ord n (bs.drop (q + 1 + k)) ⟨(d.st.produce c).rice u, c :: d.out⟩
      | none => .error .illegal

/-- The bits hold the whole of `n` RESID samples. Their number follows from A and NC alone; a prefix of 17 ones, which no
sample has, leaves it open. -/
def residFits : Nat → List Bool → Coder → Bool
  | 0, _, _ => true
  | n + 1, bs, st =>
    let k := riceK st.a st.nc
    let q := onesOf 17 bs
    if q = 17 then true
    else if bs.length < q + 1 + k then false
    else residFits n (bs.drop (q + 1 + k)) (st.rice (q * 2 ^ k + ofBits ((bs.drop (q + 1)).take k)))

/-- `n` RAW samples from bits; the bits left over. -/
def decodeRaw : Nat → List Bool → Decode → Except CodeErr (Decode × List Bool)
  | 0, bs, d => .ok (d, bs)
  | n + 1, bs, d =>
    if bs.length < 12 then .error .length
    else
      match tagCode d.st.t (ofBits (bs.take 12)) with
      | some c => decodeRaw n (bs.drop 12) ⟨d.st.produce c, c :: d.out⟩
      | none => .error .illegal

/-- Bits of bytes, bit 7 first. -/
def unpackBits (bs : List Byte) : List Bool := bs.flatMap fun b => (upto 0 8).map fun i => b.getLsbD (7 - i)

/-- The end of a bit-coded token of `total` data bits: its fill bits must be 0 (08 R253). -/
def endBits (total : Nat) : Except CodeErr (Decode × List Bool) → TokenRes
  | .error e => .err e
  | .ok (d, left) =>
    let used := total - left.length
    let fill := ceilDiv used 8 * 8 - used
    if (left.take fill).any id then .err .illegal else .ok d (2 + ceilDiv used 8)

/-- COPY: `n` containers from distance `dist` (08 R249). -/
def copyOut (dist : Nat) : Nat → List Nat → List Nat
  | 0, out => out
  | n + 1, out => copyOut dist n ((out.drop (dist - 1)).headD 0 :: out)

/-- One token whose tag byte is not PAD; `bs` are the bytes it may use, the tag byte first; `left` containers are still to
produce. -/
def decodeToken (bs : List Byte) (left : Nat) (d : Decode) : TokenRes :=
  let b := byteAt bs 0
  let n10 := b % 4 * 256 + byteAt bs 1 + 1
  let n8 := byteAt bs 1 + 1
  if 0x10 ≤ b ∧ b ≤ 0x1C then .ok { d with st := { d.st with t := b % 16 } } 1
  else if 0x20 ≤ b ∧ b ≤ 0x23 then
    if bs.length < 2 ∨ left < n10 then .err .length
    else
      let cs := List.replicate n10 d.st.last
      .ok ⟨d.st.produceAll cs, cs ++ d.out⟩ 2
  else if 0x30 ≤ b ∧ b ≤ 0x33 then
    let dist := le bs 2 2
    if bs.length < 4 then .err .length
    else if dist = 0 ∨ 1023 < dist then .err .illegal
    else if d.out.length < dist then .err .distance
    else if left < n10 then .err .length
    else
      let out := copyOut dist n10 d.out
      .ok ⟨d.st.produceAll (out.take n10).reverse, out⟩ 4
  else if b = 0x40 ∨ b = 0x50 ∨ b = 0x60 then
    let data := unpackBits (bs.drop 2)
    if bs.length < 2 ∨ left < n8 ∨ !residFits n8 data d.st then .err .length
    else endBits data.length (decodeResid (b / 16 - 4) n8 data d)
  else if b = 0x80 then
    if bs.length < 2 + ceilDiv (12 * n8) 8 ∨ left < n8 then .err .length
    else
      let data := unpackBits (bs.drop 2)
      endBits data.length (decodeRaw n8 data d)
  else .err .illegal

/-- Bytes from position `p` up to the next segment boundary; all of them without boundaries. -/
def roomTo (bounds : Bool) (p left : Nat) : Nat := if bounds then min left (4096 - p % 4096) else left

/-- Decodes from position `p` of a stream (08 R259): the containers in order, or the error and the position of its token's first
byte, which is not one of a PAD (08 R254, Table 8.8).
With `bounds`, positions count from a segment's start and no token crosses a multiple of 4096. -/
def decodeFrom (bounds : Bool) (count : Nat) : Nat → Nat → List Byte → Decode → Except (CodeErr × Nat) (List Nat)
  | 0, p, _, _ => .error (.length, p)
  | fuel + 1, p, bs, d =>
    if count ≤ d.out.length then
      if bs.all (· == 0) then .ok d.out.reverse else .error (.length, p + (bs.takeWhile (· == 0)).length)
    else
      match bs with
      | [] => .error (.length, p)
      | b :: t =>
        if b = 0 then decodeFrom bounds count fuel (p + 1) t d
        else
          match decodeToken (bs.take (roomTo bounds p bs.length)) (count - d.out.length) d with
          | .err e => .error (e, p)
          | .ok d1 used => decodeFrom bounds count fuel (p + used) (bs.drop used) d1

/-- Decodes a stream that stands at position `p`. -/
def decodeStream (bounds : Bool) (p : Nat) (bs : List Byte) (count : Nat) : Except (CodeErr × Nat) (List Nat) :=
  decodeFrom bounds count (bs.length + 1) p bs ⟨Coder.init, []⟩

end Sys2Proof.Machine
end

