-- ==== Sys2Proof/Machine/Phases.lean ====
section
/-!
DEFINITION. The last phases of start-up, which other chapters' events end (16 R454, R457), and the pins.
-/

namespace Sys2Proof.Machine

open Sys2Proof

/-- RING_N as it acts (12 R336). -/
def State.ringN (s : State) : Nat := min 8 (s.fld Reg.brxCfg 11 8)

/-- POSITION (12 Table 12.8). -/
def State.position (s : State) : Nat := s.fld Reg.brxCfg 2 0

/-- JOIN_EN (12 Table 12.8). -/
def State.joinEn (s : State) : Bool := bit (s.reg Reg.brxCfg) 15

/-- A ring member: RING_N from 2 to 8 and JOIN_EN = 1 (16 R457). -/
def State.ringMember (s : State) : Bool := 2 ≤ s.ringN && s.joinEn

/-! ### Positions and ports (12 R336 to R338) -/

/-- A head of a ring: position 0 or 1. -/
def State.isHead (s : State) : Bool := 2 ≤ s.ringN && s.position < 2

/-- The port of the mirror link: P of head A, Q of head B. -/
def State.mirrorPort (s : State) : Port := if s.position = 0 then .p else .q

/-- The port that a head sends its stream out of: Q of head A, P of head B. -/
def State.streamOut (s : State) : Port := if s.position = 0 then .q else .p

/-- The receive lane of a port. -/
def portRx : Port → RxLane
  | .p => .brixP
  | .q => .brixQ

/-- The port on which head A's stream (`b` false) or head B's arrives; none for the head that sends it. -/
def State.streamIn (s : State) (b : Bool) : Option Port :=
  if b then (if s.isHead && s.position == 1 then none else some .q)
  else (if s.isHead && s.position == 0 then none else some .p)

/-- A stream is up at this hub; at a head, what comes round of its own frames is not its partner's (12 Table 12.1). -/
def State.streamUp (s : State) (b : Bool) : Bool :=
  match s.streamIn b with
  | some pt => if s.isHead then s.partnerOn pt else s.portUsable pt
  | none => false

/-- Head B's stream is in use: it is preferred, or the preferred stream is not up (12 R348). -/
def State.usingB (s : State) : Bool :=
  if s.streamUp s.brix.preferB then s.brix.preferB
  else if s.streamUp (!s.brix.preferB) then !s.brix.preferB
  else s.brix.preferB

/-- Duration of start-up, 0.1 ms units, from the crossings counted since reset (notes/assumptions/11.md). -/
def State.startupTime (s : State) : Nat :=
  min 0xFFFF (s.time.now * s.period / (2 ^ 24 * 100000000))

/-- Phase RUN: start-up is complete and HUB_OK is high (16 R454, R458). -/
def State.enterRun (s : State) : State :=
  { s with power := { s.power with phase := .run } }.setFld Reg.pwrStartup 31 16 s.startupTime

/-- The end of CAL: a ring member goes to JOIN, any other hub to RUN (16 R457). -/
def State.enterJoin (s : State) : State :=
  if s.ringMember then
    if s.brix.bypassOpen then s.enterRun else { s with power := { s.power with phase := .join } }
  else s.enterRun

/-- The end of TIME: a calibration run is requested in every station, or phase CAL is skipped with CAL_CTL.MODE = 00
(16 Table 16.3, R454). The run of a station whose Backsight has stopped ends at once (04 R129). -/
def State.enterCal (s : State) : State :=
  let sts := (upto 0 32).filter fun j => (s.stn j).st != 3
  if s.fld Reg.calCtl 1 0 = 0 || sts.isEmpty then s.enterJoin
  else
    let t := { s with power := { s.power with phase := .cal, calWait := sts } }
    sts.foldl (fun t j => t.setStn j { t.stn j with runReq := true }) t

/-- TIME_END: phase TIME ends when the servo is LOCKED, or at once with REF_SEL = REFCLK and no downlink UP; never after
BOOT_FAIL (16 Table 16.3, Table 16.4). -/
def State.tryTimeEnd (s : State) : State :=
  if s.power.phase == .time && !s.power.bootFail &&
      (s.servoState == 2 || (s.refSel == 3 && s.framing.isNone)) then s.enterCal
  else s

/-- CAL_END: phase CAL ends when every station's run has ended (16 Table 16.3). -/
def State.tryCalEnd (s : State) : State :=
  if s.power.phase == .cal && s.power.calWait.isEmpty then s.enterJoin else s

/-- JOIN_END: a ring member whose bypass is open enters RUN (16 R457). -/
def State.tryJoinEnd (s : State) : State :=
  if s.power.phase == .join && s.brix.bypassOpen then s.enterRun else s

/-- HUB_OK is driven high in RUN and low otherwise (16 R458). -/
def State.hubOk (s : State) : Bool := s.power.phase == .run

/-- BYPASS_ST is low while the bypass is open (16 Table 16.5). -/
def State.bypassStLow (s : State) : Bool := s.brix.bypassOpen

end Sys2Proof.Machine
end

