-- ==== Sys2Proof/Machine/Time.lean ====
section
/-!
DEFINITION. Time, Datum and phase (02): the time bases, changes of Datum, the fast commands' effects on time, the
exchange and the servo, tie records and the stake table.
-/

namespace Sys2Proof.Machine

open Sys2Proof

/-- One crossing passes for the time bases (02 R39, R44). Meridian reads 0 until it is loaded (02 R43). -/
def TimeState.advance (t : TimeState) (epoch : Bool) (period staffInc plumb : Nat) : TimeState :=
  let wrap := t.cross + 1 = t.orbitN
  let frac := t.merFrac + period
  let ps := t.merPs + frac / 2 ^ 24
  let st := t.staff * 2 ^ 32 + t.staffFrac + staffInc
  { t with
    now := t.now + 1
    xcount := if t.sampling then (t.xcount + 1) % 2 ^ 64 else t.xcount
    orbit := if wrap then (t.orbit + 1) % 2 ^ 44 else t.orbit
    cross := if wrap then 0 else (t.cross + 1) % 2 ^ 13
    merFrac := if epoch then frac % 2 ^ 24 else t.merFrac
    merPs := if epoch then ps % 10 ^ 12 else t.merPs
    merS := if epoch then (t.merS + ps / 10 ^ 12) % 2 ^ 64 else t.merS
    plumb := (t.plumb + plumb) % 2 ^ 64
    staff := st / 2 ^ 32 % 2 ^ 64
    staffFrac := st % 2 ^ 32
    fcQueue := t.fcQueue.filter fun e => t.now + 1 ≤ e.act }

/-- BUSY: the accept queue holds BUSY_THR entries or more (06 R183). -/
def State.busy (s : State) : Bool := s.fld Reg.trgCtl 15 8 ≤ s.trig.accQueue.length

/-- Counts a crossing without a valid frame marked ACT; one in which none came ends the run of those that brought one
(12 R356). -/
def RxLaneState.tickAct (r : RxLaneState) : RxLaneState :=
  { r with sinceAct := r.sinceAct + 1, actRun := if r.sinceAct = 0 then r.actRun else 0 }

/-- One crossing of the hub's clock passes: what the hub does on an empty queue (notes/assumptions/3.md). -/
def State.tick (s : State) : State :=
  let up := s.anyDataUp
  let dl := s.rxUp .dla || s.rxUp .dlb
  let tm := s.time.advance s.epochSet s.period (s.reg64 Reg.timeStaffInc) (Config.plumbStep s.time.now)
  { s with
    time := { tm with dlTicks := tm.dlTicks + (if dl then 1 else 0) }
    spool := { s.spool with upTicks := s.spool.upTicks + (if up then 1 else 0) }
    trig := { s.trig with dt := { s.trig.dt with
      busyX := if s.busy && s.time.sampling then (s.trig.dt.busyX + 1) % 2 ^ 64 else s.trig.dt.busyX } }
    brixP := s.brixP.tickAct
    brixQ := s.brixQ.tickAct }

/-! ### Stakes -/

/-- The signed distance from the Datum to a target, in crossings, with orbits of `n` crossings (02 R42, R70). -/
def State.distanceN (s : State) (n orbit x : Nat) : Int :=
  orbitDiff orbit s.time.orbit * (n : Int) + ((x : Int) - (s.time.cross : Int))

/-- The distance under N in effect now. -/
def State.distance (s : State) (orbit x : Nat) : Int := s.distanceN s.n orbit x

/-- Takes a stake out of the stake table. -/
def State.dropStake (s : State) (sid : Nat) : State :=
  { s with
    stakes := s.stakes.filter fun k => k.sid != sid
    brix := { s.brix with
      arms := s.brix.arms.filter fun a => a.sid != sid
      armsGone := s.brix.armsGone ++ s.brix.arms.filter fun a => a.sid == sid }
    fw := { s.fw with act := match s.fw.act with
      | some a => if a.sid = sid then none else some a
      | none => none } }

/-- A stake commits: RESULT holds the Datum at which the action ran, or 0, and a departure stamp (02 R74, 11 Table 11.8). -/
def State.endStake (s : State) (k : Stake) (status datum stamp : Nat) : State :=
  let t := if status = Status.late ∨ status = Status.ranLate then s.countFld Reg.timeStakeStat 31 16 else s
  (t.dropStake k.sid).commit k.ring k.sq status k.tag k.resumed (leBytes 8 datum ++ leBytes 8 stamp) [] none

/-- The completion of a stake that ran: OK, or RAN_LATE under R71. -/
def State.ranStake (s : State) (k : Stake) (stamp : Nat) : State :=
  s.endStake k (if k.lateAt.isSome then Status.ranLate else Status.ok) s.datum stamp

/-- A late run is due in this crossing. -/
def State.lateDue (s : State) : LateRun → Bool
  | .at_ a => a ≤ s.time.now
  | .nextZero a => a < s.time.now && s.time.cross == 0

/-- A stake whose target is past: LATE, or it runs late (02 R71). -/
def State.stakePast (s : State) (k : Stake) (run : LateRun) : State :=
  if k.runLate then
    { s with stakes := s.stakes.map fun q => if q.sid == k.sid then { q with lateAt := some run } else q }
  else s.endStake k Status.late 0 0

/-- The test of R70 after a change of Datum: a target less than 8 crossings ahead, the present crossing among them, is
past (02 R70, R71; notes/assumptions/12.md). In FREE the test waits for the end of FREE: DESIGN CHOICE
(notes/assumptions/95.md). -/
def State.retestStakes (s : State) : State :=
  if s.ref.free then s
  else s.stakes.foldl (fun t k =>
    let d := t.distanceN k.n k.orbit k.x
    if k.lateAt.isSome ∨ k.held then t
    else if d < 8 then t.stakePast k (.at_ (t.time.now + 1))
    else if 2 ^ 40 < d then t.endStake k Status.tooFar 0 0
    else t) s

/-- The stakes whose action is due in this crossing, in the order of acceptance; none fires in FREE (02 R49, R65, R72). -/
def State.dueStakes (s : State) : List Stake :=
  if s.ref.free then []
  else s.stakes.filter fun k => !k.held &&
    match k.lateAt with
    | some a => s.lateDue a
    | none => k.orbit == s.time.orbit && k.x == s.time.cross

/-- The first due stake, when its action is `a` and no fast command still acts in this crossing (02 R49). -/
def State.dueStake (s : State) (a : Nat) : Option Stake :=
  if s.time.fcQueue.any fun e => e.act == s.time.now && 8 ≤ e.fc.toNat then none
  else match s.dueStakes with
    | k :: _ => if k.action = a then some k else none
    | [] => none

/-! ### Changes of Datum -/

/-- A change of Datum while the test runs stops the current at once and cuts the test short: it owes a post of
NOT_TESTED (03 R98). -/
def DcTest.datumChanged (d : DcTest) (x : Nat) : DcTest :=
  if d.begun && x < d.startX + 16 then { d with begun := false, current := false, cuts := d.cuts + 1 } else d

/-- A change of Datum: it is noted for older crossings, flagged in the next tie record, cuts the DC test short, and the
pending stakes are tested again (02 R51, R68, R70; 03 R98). -/
def State.setDatum (s : State) (orbit cross : Nat) : State :=
  let t := { s with
    time := { s.time with orbit := orbit % 2 ^ 44, cross := cross % 2 ^ 13 }
    dcTest := s.dcTest.datumChanged s.time.xcount }
  (t.noteDatum true).retestStakes

/-- Adds whole crossings to the Datum, with carry into the orbit. -/
def State.addDatum (s : State) (d : Int) : State :=
  if d = 0 then s
  else
    let lin : Int := (s.time.orbit : Int) * s.n + s.time.cross + d
    let orbit := lin / (s.n : Int)
    s.setDatum (toTwos 44 orbit) (lin % (s.n : Int)).toNat

/-- Adds orbits to the Datum (02 R55). -/
def State.addOrbits (s : State) (d : Nat) : State :=
  if d % 2 ^ 44 = 0 then s else s.setDatum (s.time.orbit + d) s.time.cross

/-! ### Fast commands -/

/-- Bits of the FC byte (09 Table 9.4). -/
def fcAccept : Nat := 7
def fcOrbitAct : Nat := 6
def fcResync : Nat := 5
def fcCalpulse : Nat := 4
def fcSyncX : Nat := 3

/-- The fast command of bit `b` acts in this crossing and has not run. -/
def State.fcActs (s : State) (b : Nat) : Bool :=
  s.time.fcQueue.any fun e => e.act == s.time.now && e.fc.getLsbD b

/-- The first frame of a queue that holds the fast command of bit `b` for crossing `now` holds it no more. -/
def fcClear (now b : Nat) : List FcEntry → List FcEntry
  | [] => []
  | e :: t =>
    if e.act == now && e.fc.getLsbD b then { e with fc := e.fc &&& ~~~(BitVec.ofNat 8 (2 ^ b)) } :: t
    else e :: fcClear now b t

/-- The fast command of bit `b` has run; one of another frame that acts in the same crossing is still to run (02 R47). -/
def State.fcDone (s : State) (b : Nat) : State :=
  { s with time := { s.time with fcQueue := fcClear s.time.now b s.time.fcQueue } }

/-- The fast command of bit `b` is next in the order of R49. -/
def State.fcNext (s : State) (b : Nat) : Bool :=
  let order := [fcSyncX, fcResync, fcOrbitAct, fcCalpulse, fcAccept]
  order.find? s.fcActs == some b

/-- SYNC_X: Datum orbit and crossing become the value in TIME_DATUM_LOAD (02 Table 2.3). -/
def execSyncX (s : State) : Host.Outcome State Fault Refusal :=
  let v := s.reg64 Reg.timeDatumLoad
  whenDue s (s.fcNext fcSyncX) ((s.fcDone fcSyncX).setDatum (v / 2 ^ 20) (v % 2 ^ 13))

/-- RESYNC: the hub re-reads crossing 0 from the next K28.1 (02 Table 2.3). -/
def execResync (s : State) : Host.Outcome State Fault Refusal :=
  let t := s.fcDone fcResync
  whenDue s (s.fcNext fcResync) { t with time := { t.time with resyncWait := true } }

/-- A staged N and G that R46 admits. -/
def orbitOk (v : Word) : Bool :=
  let n := bits v 12 0
  let g := bits v 25 16
  1024 ≤ n && n ≤ 8191 && 32 ≤ g && g ≤ 1023 && g + 512 ≤ n

/-- At crossing 0, armed orbit values apply when the ORBIT_ACT acted in an earlier crossing (02 R46). -/
def State.applyOrbit (s : State) : State :=
  match s.time.orbitArm with
  | some a =>
    if a < s.time.now then
      let v := s.reg Reg.timeOrbitNext
      let t := { s with time := { s.time with orbitN := bits v 12 0, orbitG := bits v 25 16, orbitArm := none } }
      t.noteDatum false
    else s
  | none => s

/-- ORBIT_ACT: arms the staged orbit values (02 R46). At crossing 0, values that an earlier one armed apply first. -/
def execOrbitAct (s : State) : Host.Outcome State Fault Refusal :=
  let t := s.fcDone fcOrbitAct
  let t := if t.time.cross = 0 then t.applyOrbit else t
  whenDue s (s.fcNext fcOrbitAct) { t with time := { t.time with orbitArm := some t.time.now } }

/-! ### Exchange and servo -/

/-- T in the servo's unit of 2⁻⁴⁹ ps, in which stamps, λ, e and T are all whole numbers. -/
def State.tServo (s : State) : Int := ((s.period * 2 ^ 25 : Nat) : Int)

/-- A crossing of T in 1/16 ps. -/
def State.t16 (s : State) : Int := ((s.period * 16 / 2 ^ 24 : Nat) : Int)

/-- A stamp at a fraction of the present crossing (02 R53). -/
def State.stamp (s : State) (frac : Nat) : Nat :=
  ((s.time.orbit * s.n + s.time.cross) % 2 ^ 40) * 2 ^ 24 + frac % 2 ^ 24

/-- Rounded quotient, halves toward zero (02 R58). -/
def roundHalfIn (a : Int) (b : Nat) : Int :=
  let q := (2 * a.natAbs + b - 1) / (2 * b)
  if 0 ≤ a then q else -(q : Int)

/-- Rounded quotient, halves away from zero (02 R60). -/
def roundHalfOut (a : Int) (b : Nat) : Int :=
  let q := (2 * a.natAbs + b) / (2 * b)
  if 0 ≤ a then q else -(q : Int)

/-- A difference of stamps in 2⁻⁴⁸ ps, exact (02 R53). -/
def State.stampSpan (s : State) (a b : Nat) : Int := sext 64 (a + 2 ^ 64 - b % 2 ^ 64) * (s.period : Int)

/-- A difference of stamps in 1/16 ps (02 R53; rounding: notes/assumptions/8.md). -/
def State.stampDiff (s : State) (a b : Nat) : Int := roundHalfIn (s.stampSpan a b) (2 ^ 44)

/-- The exchange frame's characters 1 to 25 (02 Table 2.4). -/
def exchangeBody (xseq hubId t3 t2 orbit : Nat) : List Byte :=
  leBytes 1 xseq ++ leBytes 2 hubId ++ leBytes 8 t3 ++ leBytes 8 t2 ++ leBytes 6 (orbit % 2 ^ 44)

/-- The exchange frame is due on its lane at this character boundary (02 R54, R75, R288). -/
def State.exchangeDue (s : State) : Bool :=
  let l := s.xchLane
  s.exchangePending && s.laneUp l && (s.lane l).job == .idle && s.clearOfLaunch l 29

/-- The exchange at hand is over DLB or head B's stream (02 R62, R67; 12 R347, R349). -/
def State.exchB (s : State) : Bool :=
  if s.headRef then s.position == 0 else if s.refSel = 2 then s.usingB else s.fcDl == some .b

/-- The exchange frame departs: t3 is stamped, and the frame is kept for its report (02 R54, R56). -/
def State.sendExchange (s : State) (frac : BitVec 24) : State :=
  match s.servo.k281 with
  | some (t2, orbit) =>
    let t3 := s.stamp frac.toNat
    let xseq := s.servo.xseq
    let body := exchangeBody xseq (s.fld Reg.idHubId 15 0) t3 t2 orbit
    let f : SentFrame := ⟨xseq, t2, t3, orbit, s.servo.k281B, s.servo.exch, s.time.now⟩
    { s with servo := { s.servo with
        xseq := (xseq + 1) % 256
        sent := (f :: s.servo.sent).take 16
        frameDue := false } }.sendLane s.xchLane
      (.exchange (framedChars k23_7 (body ++ leBytes 2 (crc16 body).toNat)))
  | none => s

/-- EXCHANGE_FRAME. `frac` is the fraction of the crossing of the frame's departure. -/
def execExchangeFrame (frac : BitVec 24) (s : State) : Host.Outcome State Fault Refusal :=
  whenDue s s.exchangeDue (s.sendExchange frac)

/-- A: TIME_FIBRE_ASYM for DLA or head A's stream, TIME_FIBRE_ASYM_B for DLB or head B's stream (02 R56, R62, R67;
12 R347, R349). -/
def State.asym (s : State) (onB : Bool) : Int := (s.servoReg (if onB then Reg.timeFibreAsymB else Reg.timeFibreAsym)).toInt

/-- A discarded report (02 R56). -/
def State.staleReport (s : State) : State :=
  let t := (s.countFld Reg.timeStat 31 16).event Reg.timeStat 11
  { t with tieFlags := t.tieFlags ||| 0x20 }

/-- STEP_MODE allows a step (02 R60). -/
def State.stepAllowed (s : State) : Bool :=
  match s.servoFld Reg.timeServoCtl 2 1 with
  | 0 => false
  | 2 => true
  | _ => !s.servo.everLocked

/-- The servo's lock counters after a report with error `e`, in 2⁻⁴⁹ ps (02 R61; R48 keeps it from LOCKED while `short`). A
LOCK_COUNT of 0 locks on any accepted report and an UNLOCK_COUNT of 0 acts as 1 (notes/assumptions/83.md). -/
def State.servoLock (s : State) (e : Int) (short : Bool) : State :=
  let lockT : Int := 2 ^ 48 * s.servoFld Reg.timeServoThr 15 0
  let unlockT : Int := 2 ^ 48 * s.servoFld Reg.timeServoThr 31 16
  let lr := if (e.natAbs : Int) ≤ lockT then s.servo.lockRun + 1 else 0
  let ur := if unlockT < (e.natAbs : Int) then s.servo.unlockRun + 1 else 0
  let t := { s with servo := { s.servo with lockRun := lr, unlockRun := ur } }
  if s.servo.locked then
    if max 1 (s.servoFld Reg.timeServoCtl 23 16) ≤ ur then
      { t with servo := { t.servo with locked := false } }.event Reg.timeStat 10
    else t
  else if s.servoFld Reg.timeServoCtl 15 8 ≤ lr && !short then
    { t with servo := { t.servo with locked := true, everLocked := true } }
  else t

/-- The step of R60 for an error `e`, in 2⁻⁴⁹ ps: whole crossings to the Datum and the rest to φ, at the gap. The rest is taken from
φ_fine with the moves that are still to come, unrounded, and φ is rounded from it as in an update: DESIGN CHOICE
(notes/assumptions/114.md). -/
def State.servoStep (s : State) (e : Int) : State :=
  let tx := s.tServo
  let n := if tx ≤ 0 then 0 else roundHalfOut e tx.toNat
  let f := e - n * tx
  let fine := s.servo.phiFine - f
  { s with servo := { s.servo with
      ePrev := none
      phiFine := fine
      lastStepped := true
      moves := s.servo.moves ++ [{
        from_ := s.time.now + 64, phiFine := fine, add := n
        phaseStep := tx < 8 * (f.natAbs : Int), step := true }] } }

/-- The update of R58 for an error `e`, in 2⁻⁴⁹ ps; only φ_fine is rounded, to 1/16 ps. Whether it is a sampling-phase step
(R51) is told when φ moves, by the whole of the move. -/
def State.servoUpdate (s : State) (e : Int) : State :=
  let kp : Int := s.servoFld Reg.timeServoGain 31 16
  let ki : Int := s.servoFld Reg.timeServoGain 15 0
  let ep := s.servo.ePrev.getD e
  let u := kp * (e - ep) + ki * e
  let lim : Int := 2 ^ 64 * (s.servoFld Reg.timeServoLim 15 0 : Int)
  let uc := clampI (-lim) lim u
  let fine := roundHalfIn (s.servo.phiFine * 2 ^ 16 - uc) (2 ^ 61) * 2 ^ 45
  { s with servo := { s.servo with
      ePrev := some e
      phiFine := fine
      updates := (s.servo.updates + 1) % 65536
      clamped := decide (uc ≠ u)
      lastStepped := false
      moves := s.servo.moves ++ [{
        from_ := s.time.now + 64, phiFine := fine, add := 0, phaseStep := false, step := false }] } }

/-- RXDLY of a port, 1/16 ps. -/
def State.rxDly (s : State) (pt : Port) : Int :=
  (s.reg (match pt with | .p => Reg.brxDlyP | .q => Reg.brxDlyQ)).toNat % 65536

/-- The port whose frames a head takes its fast commands and its time from when it has fallen back on its partner: the
mirror link, or else the partner's stream at its end (12 R349). -/
def State.headRefPort (s : State) : Port := if s.partnerOn s.mirrorPort then s.mirrorPort else s.streamOut

/-- This hub has measured the link into a port within the last 4 orbits (12 R346, R347). -/
def State.linkFresh (s : State) (pt : Port) : Bool :=
  match (match pt with | .p => s.brix.linkPAt | .q => s.brix.linkQAt) with
  | some o => orbitDiff s.time.orbit o ≤ 4
  | none => false

/-- PATH of the mirror link at a head, when HOPS has agreed in the two latest K28.1 frames and the one link on it, this
hub's own, has been measured (12 R347, R349). -/
def State.mirrorPath (s : State) : Option Int :=
  match (s.rx (portRx s.mirrorPort)).hops with
  | h :: h' :: _ =>
    if h = 0 ∨ h ≠ h' ∨ !s.linkFresh s.mirrorPort then none
    else some ((4 + 2 * ((h : Int) - 1)) * s.t16 + (match s.mirrorPort with | .p => s.brix.linkP | .q => s.brix.linkQ) +
      s.rxDly s.mirrorPort)
  | _ => none

/-- The ring path of head A's stream (`b` false) or head B's as reported, 0 while it cannot be used. -/
def State.knownPath (s : State) (b : Bool) : Int :=
  if b then (if s.brix.pathBValid then (s.brix.pathB : Int) else 0) else (if s.brix.pathAValid then (s.brix.pathA : Int) else 0)

/-- The ring path that D includes, 1/16 ps: the longer one of a hub that takes its time from the ring, or that of the
partner's frames at a head that has fallen back (02 R48, 12 R343, R347, R349). -/
def State.ringDelay (s : State) : Int :=
  if s.refSel = 2 then max (s.knownPath false) (s.knownPath true)
  else if s.headRef then
    (if s.headRefPort == s.mirrorPort then s.mirrorPath.getD 0 else s.knownPath (s.position == 0))
  else 0

/-- TIME_FC_LAT as it acts (02 R48). -/
def State.fcLat (s : State) : Nat := max 16 (s.fld Reg.timeFcLat 7 0)

/-- The last measured one-way delay of the stream in use, or of another when it has none yet (02 R48, R62, R66). -/
def State.delayNow (s : State) : Option Int := (if s.exchB then s.servo.delayB else s.servo.delayA) <|> s.servo.delay

/-- D of R48: a measured delay with the ring path, rounded up to whole crossings. -/
def State.delayX (s : State) (delay : Int) : Int :=
  if s.tServo ≤ 0 then 0 else -((-(delay + 2 ^ 45 * s.ringDelay)) / s.tServo)

/-- How many crossings D + 4 exceeds TIME_FC_LAT by; 0 or less when it does not, or nothing is measured (02 R48). -/
def State.fcExcess (s : State) : Int :=
  match s.delayNow with
  | some d => s.delayX d + 4 - s.fcLat
  | none => 0

/-- D + 4 > TIME_FC_LAT (02 R48). -/
def State.fcShort (s : State) : Bool := decide (0 < s.fcExcess)

/-- FC_LAT_SHORT is set when a measurement, a path or a write of TIME_FC_LAT makes D + 4 > TIME_FC_LAT (02 R48). -/
def State.noteShort (s : State) : State := if s.fcShort then s.event Reg.timeStat 8 else s

/-- What an accepted report measures, in 2⁻⁴⁸ ps for the two spans: lateness, round trip and delay (02 R56, R48). -/
def State.measure (s : State) (f : SentFrame) (down up : Int) : State :=
  let rtt := down + up
  let delay := rtt + 2 ^ 44 * s.asym f.onB
  let e := up - down + 2 ^ 44 * s.asym f.onB - 2 ^ 48 * sext 17 (bits (s.servoReg Reg.timePhaseTgt) 16 0)
  let v := s.servo
  { s with servo := { v with
      err := roundHalfIn e (2 ^ 45), rtt := roundHalfIn rtt (2 ^ 44), missRun := 0, holdPhase := false
      delay := some delay
      delayA := if f.onB then v.delayA else some delay
      delayB := if f.onB then some delay else v.delayB
      rtts := if f.onB then v.rtts else (rtt :: v.rtts).take 16
      rttsB := if f.onB then (rtt :: v.rttsB).take 16 else v.rttsB } }

/-- The servo's correction for an error `e`. While a returned reference differs by whole crossings the hub keeps its Datum
and the servo does not move (02 R58, R60, R66). -/
def State.correct (s : State) (e : Int) : State :=
  if !bit (s.servoReg Reg.timeServoCtl) 0 || s.ref.slip then s
  else if s.stepAllowed && 2 ^ 48 * (s.servoFld Reg.timeServoLim 31 16 : Int) < (e.natAbs : Int) then s.servoStep e
  else s.servoUpdate e

/-- An accepted report: lateness, round trip, delay, error, the servo's correction and its lock (02 R48, R56, R58, R60,
R61). The master's stamps are taken in the hub's own orbit numbering when the report asks for adoption
(notes/assumptions/13.md). -/
def State.acceptReport (s : State) (f : SentFrame) (t1 t4 : Nat) (adopt : Option Nat) : State :=
  let fix := match adopt with
    | some d => (d * s.n % 2 ^ 40) * 2 ^ 24
    | none => 0
  let down := s.stampSpan f.t2 ((t1 + 2 ^ 64 - fix) % 2 ^ 64)
  let up := s.stampSpan ((t4 + 2 ^ 64 - fix) % 2 ^ 64) f.t3
  let e := up - down + 2 ^ 44 * s.asym f.onB - 2 ^ 48 * sext 17 (bits (s.servoReg Reg.timePhaseTgt) 16 0)
  let t := (s.measure f down up).noteShort
  let t := match adopt with
    | some d =>
      if t.ref.slip ∨ (t.servo.adopt.map Prod.snd) = some d then t
      else { t with servo := { t.servo with adopt := some (t.time.now + 64, d) } }
    | none => t
  ((t.correct e).servoLock e t.fcShort).tryTimeEnd

/-- The exchange frame that a report with XSEQ `xseq` is about: among the last 16 sent, not 16 exchanges old (02 R56). -/
def State.reportFor (s : State) (xseq : Nat) : Option SentFrame :=
  (s.servo.sent.find? fun f => f.xseq == xseq).filter fun f =>
    decide (s.servo.exch < f.exch + 16) && decide (s.time.now ≤ f.sentNow + 16 * s.servo.xchDiv * s.n)

/-- In LOCKED, the round trip of a report differs from the mean of the accepted ones by more than 100 ps (02 R56). -/
def State.rttOutlier (s : State) (f : SentFrame) (t1 t4 : Nat) : Bool :=
  let rtt := s.stampSpan f.t2 t1 + s.stampSpan t4 f.t3
  let rtts := if f.onB then s.servo.rttsB else s.servo.rtts
  let sum := rtts.foldl (· + ·) 0
  let cnt : Int := rtts.length
  s.servo.locked && 0 < cnt && decide (100 * 2 ^ 48 * cnt < ((rtt * cnt - sum).natAbs : Int))

/-- The orbits that a report asks the hub to add to its Datum: its flag is set and its orbit differs (02 R55). -/
def adoptOf (b : List Byte) (f : SentFrame) : Option Nat :=
  let d := (le b 8 8 % 2 ^ 44 + 2 ^ 44 - f.orbit % 2 ^ 44) % 2 ^ 44
  if byteAt b 1 % 2 = 1 ∧ d ≠ 0 then some d else none

/-- What a TIME_REPORT body does (02 R52, R55, R56). -/
def State.timeReport (s : State) (b : List Byte) : State :=
  if !s.past .links then s
  else match s.reportFor (byteAt b 0) with
    | some f =>
      if s.rttOutlier f (le b 16 8) (le b 24 8) then s.staleReport
      else s.acceptReport f (le b 16 8) (le b 24 8) (adoptOf b f)
    | none => s.staleReport

/-- TIME_REPORT. -/
def execTimeReport (body : List Byte) (s : State) : Host.Outcome State Fault Refusal := .next (s.timeReport body)

/-- HOLD_PHASE: 64 consecutive exchanges with no accepted report; φ and e_prev are kept. Leaving LOCKED sets
UNLOCKED_EVT (02 R61); the run of reports towards LOCKED begins anew: DESIGN CHOICE (notes/assumptions/114.md). -/
def execHoldPhase (s : State) : Host.Outcome State Fault Refusal :=
  whenDue s (64 < s.servo.missRun && !s.servo.holdPhase)
    (let t := { s with servo := { s.servo with holdPhase := true, locked := false, lockRun := 0 } }
     if s.servo.locked then t.event Reg.timeStat 10 else t)

/-- φ_fine with φ within [-T/2, T/2), and the crossings that go to the Datum instead (02 R59). -/
def wrapPhi (tx fine : Int) : Int × Int :=
  if tx ≤ 0 then (fine, 0)
  else
    let k := (2 * (roundHalfIn fine (2 ^ 48) * 2 ^ 48) + tx) / (2 * tx)
    (fine - k * tx, k)

/-- At the first gap crossing, the pending updates and steps that are due and an adoption apply (02 R55, R58, R59, R60);
whether the sampling instants move by more than T/8, which is a sampling-phase step (02 R51). A crossing that φ wraps by
moves with every later value of φ. An update whose report was accepted before ENABLE was cleared still applies
(notes/assumptions/84.md). -/
def State.applyServo (s : State) : State × Bool :=
  let due : List PhaseMove := s.servo.moves.filter fun m => decide (m.from_ ≤ s.time.now)
  let a := match s.servo.adopt with
    | some (f, d) => if f ≤ s.time.now then some d else none
    | none => none
  let s1 := match a with
    | some d => { s with servo := { s.servo with adopt := none } }.addOrbits d
    | none => s
  match due.getLast? with
  | some m =>
    let (fine, k) := wrapPhi s1.tServo m.phiFine
    let moved := roundHalfIn m.phiFine (2 ^ 48) - s1.servo.phi
    let rest : List PhaseMove := s1.servo.moves.filter fun m => decide (s.time.now < m.from_)
    let t := { s1 with
      servo := { s1.servo with
        phi := roundHalfIn fine (2 ^ 48)
        phiFine := s1.servo.phiFine - k * s1.tServo
        moves := rest.map fun (q : PhaseMove) => { q with phiFine := q.phiFine - k * s1.tServo } }
      tieFlags := if (due.any fun (q : PhaseMove) => q.step) then s1.tieFlags ||| 2 else s1.tieFlags }
    (t.addDatum (due.foldl (fun (n : Int) (q : PhaseMove) => n + q.add) k),
      (due.any fun (q : PhaseMove) => q.phaseStep) || decide (s1.tServo < 8 * 2 ^ 48 * (moved.natAbs : Int)))
  | none => (s1, false)

/-- An exchange orbit begins: one more exchange, without a report so far (02 R52, R61, R288). XCH_DIV applies from the
next orbit. -/
def State.orbitExchange (s : State) : State :=
  let div := max 1 (s.servoFld Reg.timeServoCtl 31 24)
  let t := { s with servo := { s.servo with xchDiv := div } }
  if t.past .links && t.time.orbit % div == 0 then
    { t with servo := { t.servo with exch := t.servo.exch + 1, missRun := t.servo.missRun + 1, k281 := none,
                                     frameDue := false } }
  else t

/-- The K28.1 of an exchange orbit arrives (02 R52). -/
def State.stampK281 (s : State) (frac : Nat) : State :=
  if s.past .links && s.time.orbit % s.servo.xchDiv == 0 then
    { s with servo := { s.servo with k281 := some (s.stamp frac, s.time.orbit), k281B := s.exchB, frameDue := true } }
  else s

/-- The received crossing 0 against the hub's own, in crossings, after allowing for the last measured D: 0 when they agree
(02 R66). The K28.1 arrived `back` crossings ago, at fraction `frac`. -/
def State.k281Offset (s : State) (back frac : Nat) : Int :=
  let tx := s.tServo
  let pos : Int := ((s.time.cross : Int) - back) * tx + tx * frac / 2 ^ 24 - s.delayNow.getD 0
  let d := if tx ≤ 0 then 0 else roundHalfOut pos tx.toNat
  let n : Int := s.n
  let m := d % n
  if n < 2 * m then m - n else m

/-- The hub's Datum crossing is realigned to the received K28.1 (02 R50, and the first Datum). -/
def State.realign (s : State) (back frac : Nat) : State := s.addDatum (-(s.k281Offset back frac))

/-! ### The reference -/

/-- FREE ends, and the pending stakes are tested again (02 R65). -/
def State.leaveFree (s : State) : State :=
  let t := { s with ref := { s.ref with free := false, slip := false, heldAt := none } }
  if s.ref.free then t.retestStakes else t

/-- A reference has just become usable or been lost, or another has taken its place (02 R62, R63, R65, R66, R516). One that
returns is checked at its next K28.1; HOLDOVER ends at once, and FREE only when the Datum agrees
(notes/assumptions/85.md). REFCLK without a downlink leaves the hub's own Datum in force (02 R67). -/
def State.refUpdate (s : State) : State :=
  let fb := match s.refSel with
    | 0 => s.refDl == some .b
    | 1 => s.refDl == some .a
    | 3 => s.ref.refclkBad && s.refUsable
    | _ => false
  let fb := fb || s.headRef
  let ok := s.refUsable
  let src := s.zeroSource
  let r := s.ref
  let s := { s with ref := { r with
    onFallback := fb, usable := ok, source := src
    check := r.check || (ok && (!r.usable || (src != 0 && src != r.source && !fb))) } }
  if ok then
    let t := { s with ref := { s.ref with everUsable := true, holdover := false
                                          heldAt := if r.free then s.ref.heldAt else none } }
    if s.refSel = 3 ∧ s.framing.isNone then t.leaveFree else t
  else if r.everUsable && !r.holdover && !r.free then
    let t := { s with ref := { s.ref with
      heldAt := some s.time.now, heldDev := 0, heldTemps := (upto 0 32).map fun j => (s.stn j).theta
      holdover := bit (s.reg Reg.timeCtl) 3, free := !bit (s.reg Reg.timeCtl) 3 } }
    t.event Reg.timeStat 12
  else s

/-- The largest change of a junction temperature since the reference was lost (02 R64). -/
def State.noteHeld (s : State) : State :=
  if s.ref.heldAt.isSome then
    { s with ref := { s.ref with heldDev :=
        ((upto 0 32).map fun j => ((s.stn j).theta - s.ref.heldTemps.getD j 0).natAbs).foldl max s.ref.heldDev } }
  else s

/-- The received crossing 0 is checked against the hub's own, `back` crossings and a fraction ago: the first one since reset
gives the hub its Datum; DATUM_SLIP is set when a later one differs by whole crossings, and with STEP_MODE = 10 the hub
steps (02 R60, R65, R66). -/
def State.refCheck (s : State) (back frac : Nat) : State :=
  let c := { s with ref := { s.ref with check := false } }
  if !s.ref.aligned then
    let t := { c with ref := { c.ref with aligned := true } }.realign back frac
    if s.refUsable then t.leaveFree else t
  else
    let d := s.k281Offset back frac
    if d = 0 then c.leaveFree
    else if s.ref.slip && !s.ref.check then c
    else
      let t := { c with ref := { c.ref with slip := true } }.event Reg.timeStat 9
      if s.servoFld Reg.timeServoCtl 2 1 = 2 then
        { t with servo := { t.servo with
            ePrev := none
            lastStepped := true
            moves := t.servo.moves ++ [{
              from_ := t.time.now + 64, phiFine := t.servo.phiFine, add := -d, phaseStep := false, step := true }] } }
      else t

/-- A received crossing 0 is checked when it is the first since reset, or a usable reference waits for its check or has
slipped (02 R66). -/
def State.refSeen (s : State) (back frac : Nat) : State :=
  if !s.ref.aligned || (s.refUsable && (s.ref.check || s.ref.slip)) then s.refCheck back frac else s

/-- What a K28.1 of the reference does beside numbering the master's crossings: RESYNC realigns; a reference that has
returned, or whose crossing 0 had slipped, is checked (02 R50, R65, R66). It arrived `back` crossings ago, at fraction
`frac`. -/
def State.k281Seen (s : State) (back frac : Nat) : State :=
  let s := if s.time.resyncWait then { s with time := { s.time with resyncWait := false } }.realign back frac else s
  s.refSeen back frac

/-! ### Tie records -/

/-- The tie record of the present crossing 0 (02 Table 2.5). -/
def State.tieRecord (s : State) : List Byte :=
  let flags := s.tieFlags.toNat + (if s.ref.holdover then 8 else 0) + (if s.ref.onFallback then 16 else 0)
  leBytes 8 (s.time.orbit % 2 ^ 44) ++ leBytes 8 s.time.merS ++
    leBytes 5 s.time.merPs ++ leBytes 1 1 ++ leBytes 1 s.quality ++ leBytes 1 0 ++
    leBytes 8 s.time.plumb ++ leBytes 4 (toTwos 32 s.servo.err) ++ leBytes 4 (toTwos 32 s.servo.phi) ++
    leBytes 4 (toTwos 32 s.servo.rtt) ++ leBytes 2 s.n ++ leBytes 1 flags ++ leBytes 1 s.tseq

/-- TIE_RECORD: the record is formed, kept and sent in class 6; one that the share cannot take sets TIE_DROP (02 R68,
10 Table 10.5). -/
def State.formTie (s : State) : State :=
  let b := s.tieRecord
  let t := { s with ties := ((TieRec.mk b) :: s.ties).take 64, tseq := (s.tseq + 1) % 256, tieFlags := 0 }
  match t.tryShare 6 0 fun u => u.placeRecord 6 b true false with
  | some u => u
  | none => t.event Reg.splStat 5

/-! ### Stake actions of this chapter -/

/-- The picoseconds that a stake loads; a value beyond a second is unstated and loads a free one
(notes/assumptions/14.md). -/
def loadedPicos (v : Nat) : Nat := if v < 10 ^ 12 then v else Config.badPicos v % 10 ^ 12

/-- LOAD_MERIDIAN: the stake loads Meridian seconds and picoseconds (02 Table 2.7, R43); the fraction of a picosecond begins
anew, which the manual does not say: DESIGN CHOICE (notes/assumptions/94.md). -/
def execLoadMeridian (s : State) : Host.Outcome State Fault Refusal :=
  match s.dueStake 0x04 with
  | some k =>
    let t := { s with
      time := { s.time with merS := le k.args 0 8, merPs := loadedPicos (le k.args 8 8), merFrac := 0 }
      tieFlags := s.tieFlags ||| 4 }
    .next ((t.orReg Reg.timeStat (place 1 13)).ranStake k 0)
  | none => .next s

/-- LOAD_STAFF: the stake loads the Staff integer (02 Table 2.7); its hidden fraction begins anew, which the manual does not
say: DESIGN CHOICE (notes/assumptions/94.md). -/
def execLoadStaff (s : State) : Host.Outcome State Fault Refusal :=
  match s.dueStake 0x05 with
  | some k =>
    .next ({ s with time := { s.time with staff := le k.args 0 8, staffFrac := 0 } }.ranStake k 0)
  | none => .next s

/-- A queued-frame buffer of the user area (02 R75). -/
def State.frameBuffer (s : State) (i : Nat) : List Byte :=
  (upto (4096 * i) 4096).map fun a => tabGet 0 s.mem.user a

/-- A buffer that R76 admits. -/
def frameOk (b : List Byte) : Bool :=
  let fl := byteAt b 1
  let len := le b 2 2
  2 ≤ byteAt b 0 && byteAt b 0 ≤ 31 && fl < 4 && 1 ≤ len && len ≤ 4064 &&
    (fl % 2 == 0 || le b 4 2 + 8 ≤ len) && allZero (bytesAt b 6 26)

/-- LAUNCH_BUFFER_READ: 128 crossings before the target the buffer is read again (02 R75); a buffer that R76 does not
admit completes BAD_DESCRIPTOR with a Datum of 0. -/
def State.launchRead (s : State) (k : Stake) : State :=
  let b := s.frameBuffer (byteAt k.args 0)
  if frameOk b then
    { s with stakes := s.stakes.map fun q => if q.sid == k.sid then { q with frame := some b } else q }
  else s.endStake k Status.badDescriptor 0 0

/-- LAUNCH_BUFFER_READ. -/
def execLaunchBufferRead (sid : Nat) (s : State) : Host.Outcome State Fault Refusal :=
  match s.stakes.find? fun k => k.sid == sid && k.action == 1 && k.frame.isNone with
  | some k =>
    whenDue s (k.lateAt.isSome || (s.distance k.orbit k.x ≤ 128 && !s.ref.free)) (s.launchRead k)
  | none => .next s

/-- The launched frame as sent: K28.0, the data with the stamp written into it, the CRC over the data as sent, K29.7
(02 R76). -/
def launchChars (b : List Byte) (stamp : Nat) : List LChar :=
  let len := le b 2 2
  let fl := byteAt b 1
  let d := (b.drop 32).take len
  let off := le b 4 2
  let d := if fl % 2 = 1 then d.take off ++ leBytes 8 stamp ++ d.drop (off + 8) else d
  framedChars k28_0 (if 2 ≤ fl then d ++ leBytes 4 (crc32c d).toNat else d)

/-- LAUNCH_FRAME: the frame leaves on the named lane, or the stake completes NOT_FOUND when the lane is not UP (02 R75,
R76). On a lane that is still busy, which a stake with less than 128 crossings' notice can meet, the frame waits for the
lane (notes/assumptions/82.md). `frac` is the fraction of the crossing of its first character. -/
def State.launchFrame (s : State) (k : Stake) (b : List Byte) (frac : Nat) : State :=
  let lane := byteAt b 0
  if !s.laneUp lane then s.endStake k Status.notFound 0 0
  else if (s.lane lane).job == .idle then
    let stamp := s.stamp frac
    let t := s.sendLane lane (.launch (launchChars b stamp))
    (t.setLane lane { t.lane lane with job := .launch k.ring k.sq }).ranStake k stamp
  else
    { s with stakes := s.stakes.map fun q => if q.sid == k.sid then { q with held := true, frame := some b } else q }

/-- A launched frame that waits for its lane, when the lane is free or has gone down. -/
def State.heldLaunch (s : State) : Option Stake :=
  s.stakes.find? fun k => k.held && match k.frame with
    | some b => !s.laneUp (byteAt b 0) || (s.lane (byteAt b 0)).job == .idle
    | none => false

/-- LAUNCH_FRAME. -/
def execLaunchFrame (frac : BitVec 24) (s : State) : Host.Outcome State Fault Refusal :=
  match s.heldLaunch <|> s.dueStake 0x01 with
  | some k =>
    match k.frame with
    | some b => .next (s.launchFrame k b frac.toNat)
    | none =>
      let b := s.frameBuffer (byteAt k.args 0)
      if frameOk b then .next (s.launchFrame k b frac.toNat)
      else .next (s.endStake k Status.badDescriptor 0 0)
  | none => .next s

/-- The values that a CAPTURE latches, in the order of the TIME_CAP_ registers (02 Table 2.8). -/
def State.timeBases (s : State) : List (BitVec 64) :=
  [s.datum, toTwos 17 s.servo.phi, s.time.xcount, s.time.plumb, s.time.merS,
    s.time.merPs + s.quality * 2 ^ 48, s.time.staff].map (BitVec.ofNat 64)

/-- CAPTURE on a path; on the stake path it has no effect (02 R77, 17 Table 17.2). -/
def State.capture (s : State) (p : Path) : State :=
  match p with
  | .stake => s
  | _ => s.setPath p { s.path p with caps := s.timeBases }

end Sys2Proof.Machine
end

