-- ==== Sys2Proof/Machine/Links.lean ====
section
/-!
DEFINITION. Trained lanes (09 R273 to R281, R285 to R289) and the hub's requests to its downlinks (09 R280).
-/

namespace Sys2Proof.Machine

open Sys2Proof

/-- A lane that is in training (09 Table 9.15). -/
def TState.training : TState → Bool
  | .acquire | .equalise | .switch | .test | .join => true
  | .off | .up | .backoff => false

/-- TSTATE code (09 Table 9.6). -/
def TState.code : TState → Nat
  | .acquire => 0 | .equalise => 1 | .switch => 3 | .test => 4 | .join => 5
  | .off | .up | .backoff => 0

/-- The final step of a lane: 3 for uplinks, 1 for Brix lanes (09 Table 9.1). -/
def finalStep (lane : Nat) : Nat := if lane < 32 then 3 else 1

/-- ACQUIRE at a step: the timers of R277 start. A transmitter that was powered down starts with negative disparity (09 R264,
R273). -/
def State.acquire (s : State) (n step : Nat) : State :=
  let l := s.lane n
  let off := l.st == .off || l.st == .backoff
  s.setLane n { l with
    st := .acquire, step := step, timerFrom := s.time.dlTicks, stepFrom := none
    rd := l.rd && !off, seqAt := 0 }

/-- A new value of a tap and its RESP code: 1 increase, 2 decrease; beyond the range it stays and reports at limit
(09 Table 9.7, Table 9.8, R276). -/
def tapMove (v max req : Nat) : Nat × Nat :=
  if req = 1 then (if v < max then (v + 1, 1) else (v, 2))
  else if req = 2 then (if 0 < v then (v - 1, 1) else (v, 2))
  else (v, 0)

/-- Applies a REQ to the taps and sets RESP (09 R276). -/
def TxLane.applyReq (l : TxLane) (req : Nat) : TxLane :=
  let (pre, r0) := tapMove l.pre 7 (req % 4)
  let (post, r1) := tapMove l.post 15 (req / 4 % 4)
  let (swing, r2) := tapMove l.swing 7 (req / 16 % 4)
  { l with pre := pre, post := post, swing := swing, resp := BitVec.ofNat 8 (r0 + 4 * r1 + 16 * r2) }

/-- Applies the TAPS requests that wait (09 R281). -/
def State.applyTaps (s : State) (n : Nat) : State :=
  let l := s.lane n
  if l.taps.isEmpty then s else s.setLane n { l.taps.foldl TxLane.applyReq l with taps := [] }

/-- A completion committed by a launch that is cut off becomes NOT_FOUND (09 R289). -/
def State.cutLaunch (s : State) (lane ring sq : Nat) : State :=
  { s with ctl := { s.ctl with committed := s.ctl.committed.map fun (c : Completion) =>
      if c.ring == ring && c.sq == sq then { c with status := BitVec.ofNat 8 Status.notFound } else c } }.sendLane lane .cut

/-- The work in progress on a lane is abandoned: a packet ends with K30.7 while the transmitter runs, a launched frame
is cut off (09 R286, R289). -/
def State.abandonJob (s : State) (n : Nat) (runs : Bool) : State :=
  let t := match (s.lane n).job with
    | .packet _ _ => if runs then s.sendLane n (.abort [k30_7]) else s
    | .launch r q => s.cutLaunch n r q
    | .idle => s
  ((t.setLane n { t.lane n with job := .idle }).applyTaps n).releaseNow

/-- What is in progress in the slots of a Brix port is lost with its lane. -/
def State.dropSlots (s : State) (n : Nat) : State :=
  let cut (p : PortTx) : PortTx := { p with pass := [], midPass := false, cur := [] }
  if n = 32 then { s with brix := { s.brix with txP := cut s.brix.txP } }
  else if n = 33 then { s with brix := { s.brix with txQ := cut s.brix.txQ } }
  else s

/-- LANE_DECLARED_DOWN: a lane that is UP is declared down: its packet is abandoned, its packets queue for resending, and
it starts retraining at step 0 (09 R286, 10 R305). -/
def State.laneDeclaredDown (s : State) (n : Nat) (runs : Bool) : State :=
  let t := ((s.abandonJob n runs).dropSlots n).event Reg.lnkStat 6
  let t := if 2 ≤ n ∧ n < 32 then t.resendLane n else t
  let t := t.setLane n { t.lane n with downCount := satInc 0xFFFF (t.lane n).downCount }
  t.acquire n 0

/-- Moves a lane below its final step to SWITCH at a crossing of the hub's own count (09 R276). -/
def State.toSwitch (s : State) (n at_ : Nat) : State :=
  s.setLane n { s.lane n with st := .switch, switchAt := at_ }

/-- READY for the present step in EQUALISE (09 R276). -/
def State.laneReady (s : State) (n : Nat) : State :=
  let l := s.lane n
  if l.step < finalStep n then s.toSwitch n (s.time.now + 256)
  else s.setLane n { l with st := .test, testFrom := s.time.now, testN := s.n }

/-- TEST_ORBITS orbits in TEST have passed (09 R276; an orbit of N in effect at entry, notes/assumptions/15.md). -/
def State.testDone (s : State) (n : Nat) : Bool :=
  let l := s.lane n
  l.testFrom + s.fld1 Reg.lnkTrainTmr 7 0 * l.testN ≤ s.time.now

/-- A valid LANE_TRAIN restarts the TRAIN_TIMEOUT of a lane in training (09 R277). -/
def State.trainSeen (s : State) (n : Nat) : State :=
  let l := s.lane n
  if l.st.training then s.setLane n { l with timerFrom := s.time.dlTicks } else s

/-- A request of the far end for lane `n`: 1 TAPS, 2 READY, 3 RESTART (09 R276, R281). -/
def State.laneTrain (s : State) (n cmd req step : Nat) : State :=
  let l := s.lane n
  match l.st with
  | .off | .backoff => s
  | .up =>
    if cmd = 1 then
      let t := s.setLane n { l with taps := l.taps ++ [req] }
      if l.job == .idle then t.applyTaps n else t
    else if cmd = 3 then s.laneDeclaredDown n true
    else s
  | _ =>
    if cmd = 3 then s.acquire n 0
    else if step ≠ l.step then s
    else
      let s := s.trainSeen n
      let l := s.lane n
      let s := if l.st == .acquire then s.setLane n { l with st := .equalise, stepFrom := none } else s
      let l := s.lane n
      match l.st with
      | .equalise => if cmd = 1 then s.setLane n (l.applyReq req) else if cmd = 2 then s.laneReady n else s
      | .test => if cmd = 2 && s.testDone n then s.setLane n { l with st := .join } else s
      | _ => s

/-- What a LANE_TRAIN body does, its CMD being `cmd`; a CMD that the table does not give is ignored (09 Table 9.8). -/
def State.laneTrainMsg (s : State) (cmd : Nat) (b : List Byte) : State :=
  let n := byteAt b 0
  if n < 32 && 1 ≤ cmd && cmd ≤ 3 then s.laneTrain n cmd (byteAt b 2) (byteAt b 3) else s

/-- TAPS. -/
def execTaps (body : List Byte) (s : State) : Host.Outcome State Fault Refusal := .next (s.laneTrainMsg 1 body)

/-- READY. -/
def execReady (body : List Byte) (s : State) : Host.Outcome State Fault Refusal := .next (s.laneTrainMsg 2 body)

/-- RESTART. -/
def execRestart (body : List Byte) (s : State) : Host.Outcome State Fault Refusal := .next (s.laneTrainMsg 3 body)

/-- LANE_SWITCH: crossing SWITCH_X begins: step + 1, ACQUIRE (09 R276). -/
def execLaneSwitch (lane : Nat) (s : State) : Host.Outcome State Fault Refusal :=
  let l := s.lane lane
  whenDue s (l.st == .switch && l.switchAt ≤ s.time.now)
    (s.setLane lane { l with
      st := .acquire, step := l.step + 1, timerFrom := s.time.dlTicks, stepFrom := some s.time.dlTicks, seqAt := 0 })

/-- LANE_JOIN: a lane in JOIN is UP; ATTEMPTS returns to 0 (09 R276, R277). -/
def execLaneJoin (lane : Nat) (s : State) : Host.Outcome State Fault Refusal :=
  let l := s.lane lane
  whenDue s (l.st == .join) (s.setLane lane { l with st := .up, attempts := 0, job := .idle, taps := [], seqAt := 1 })

/-- The attempt of a lane in training has failed (09 R277; both limits pause while no downlink is up,
notes/assumptions/15.md). -/
def State.trainFails (s : State) (n : Nat) : Bool :=
  let l := s.lane n
  l.st.training && (l.timerFrom + 256 * s.fld1 Reg.lnkTrainTmr 31 16 ≤ s.time.dlTicks ||
    match l.stepFrom with
    | some t => t + 4096 ≤ s.time.dlTicks
    | none => false)

/-- A failed attempt: ACQUIRE at step 0, or BACKOFF from the fourth on (09 R277). -/
def State.trainFailed (s : State) (n : Nat) : State :=
  let l := s.lane n
  let a := l.attempts + 1
  let t := s.setLane n { l with attempts := satInc 0xF l.attempts }
  let t := if a = 4 then t.event Reg.lnkStat 7 else t
  if 4 ≤ a then t.setLane n { t.lane n with st := .backoff, step := 0, backoffFrom := t.time.now }
  else t.acquire n 0

/-- TRAIN_TIMEOUT. -/
def execTrainTimeout (lane : Nat) (s : State) : Host.Outcome State Fault Refusal :=
  whenDue s (s.trainFails lane) (s.trainFailed lane)

/-- BACKOFF_END: after 2²⁵ crossings the lane starts a new attempt (09 R277). -/
def execBackoffEnd (lane : Nat) (s : State) : Host.Outcome State Fault Refusal :=
  let l := s.lane lane
  whenDue s (l.st == .backoff && l.backoffFrom + 2 ^ 25 ≤ s.time.now) (s.acquire lane 0)

/-- What a LANE_DOWN body does (09 R285). -/
def State.laneDownMsg (s : State) (b : List Byte) : State :=
  let n := byteAt b 0
  if n < 32 && s.laneUp n then s.laneDeclaredDown n true else s

/-- LANE_DOWN. -/
def execLaneDown (body : List Byte) (s : State) : Host.Outcome State Fault Refusal := .next (s.laneDownMsg body)

/-- UPLINK_FAULT: a fault of the lane's own serialiser, clock or driver: a lane that is UP is declared down, its transmitter
not running, and the attempt of one in training fails (09 R285, R289). -/
def execUplinkFault (lane : Nat) (s : State) : Host.Outcome State Fault Refusal :=
  .next (if s.laneUp lane then s.laneDeclaredDown lane false
    else if (s.lane lane).st.training then s.trainFailed lane
    else s)

/-- The PLL gives the uplinks a bit clock, from the end of FUSE on (16 R455). -/
def State.bitClock (s : State) : Bool := s.power.pllLocked

/-- An enabled lane in OFF starts training; a disabled one goes to OFF, declared down first when UP (09 Table 9.6,
Table 9.11 LNK_UL_EN). -/
def State.ulEnable (s : State) (en : Word) : State :=
  (upto 0 32).foldl (fun t n =>
    if bit en n then
      if (t.lane n).st == .off && t.bitClock then t.acquire n 0 else t
    else
      let t := if t.laneUp n then t.laneDeclaredDown n true else t
      t.setLane n { t.lane n with st := .off, step := 0 }) s

/-- The training sequence that a lane sends (09 Table 9.7); `tseq` is its sequence number. -/
def State.trainingSeq (s : State) (n tseq req : Nat) : List Byte :=
  let l := s.lane n
  let d := (l.switchAt : Int) - s.time.now
  let lin : Int := (s.time.orbit : Int) * s.n + s.time.cross + d
  let sw := if l.st == .switch && 0 < s.n then
      (lin % (s.n : Int)).toNat % 2 ^ 13 + (lin / (s.n : Int)).toNat % 2 ^ 11 * 2 ^ 13
    else 0
  let b := leBytes 1 n ++ leBytes 1 (l.step + 16 * l.st.code) ++ leBytes 1 (l.post + 16 * l.pre) ++ leBytes 1 l.swing ++
    leBytes 1 (if n < 32 then 0 else req) ++ [l.resp] ++ leBytes 1 tseq ++ leBytes 3 sw ++ leBytes 3 0
  b ++ leBytes 2 (crc16 b).toNat

/-- A lane in training sends its next sequence; its RESP is then told, and the request of a Brix lane, which its receiver
makes, is free (09 R274, R276, R279; notes/assumptions/16.md). -/
def State.sendTraining (s : State) (n : Nat) : State :=
  let (q, t) := if n < 32 then (0, s) else s.free
  let u := t.sendLane n (.training (k28_2 :: dataChars (t.trainingSeq n (t.lane n).tseq (q % 64))))
  u.setLane n { u.lane n with resp := 0, tseq := ((u.lane n).tseq + 1) % 256 }

/-- The character of the next crossing that a lane's next training sequence begins with. -/
def State.setSeqAt (s : State) (n at_ : Nat) : State := s.setLane n { s.lane n with seqAt := at_ }

/-- A data lane that is UP and sends nothing else in a crossing sends K28.5: in each character of it, or, in a crossing that an item
took a part of, in the rest, which no rule gives and is free (09 R265; notes/assumptions/86.md). -/
def State.idleLane (s : State) (n : Nat) : State :=
  let l := s.lane n
  if 2 ≤ n ∧ n < 32 ∧ l.st = .up then
    if l.seqAt = 0 then s.sendLane n (.idle l.rate)
    else
      let (q, t) := s.free
      (t.sendLane n (.idle (q % l.rate))).setSeqAt n 0
  else s

/-- The training sequences that begin in a crossing, of 5 × 2ˢ characters at step s: one each 16 characters, back to back
(09 R263, R274). One that a launched frame would meet on the lane is held back, and the lane sends K28.5 (02 R75). -/
def State.trainLane (s : State) (n : Nat) : State :=
  let l := s.lane n
  if l.st.training then
    let rate := l.rate
    let due := ceilDiv (rate - l.seqAt) 16
    let k := ((upto 0 due).takeWhile fun i => s.clearFor n (ceilDiv (l.seqAt + 16 * (i + 1)) rate)).length
    let t := (upto 0 k).foldl (fun t _ => t.sendTraining n) s
    if k < due then (t.sendLane n (.idle (rate - (l.seqAt + 16 * k)))).setSeqAt n 0
    else t.setSeqAt n (l.seqAt + 16 * k - rate)
  else if l.job == .idle then (s.applyTaps n).idleLane n
  else s

/-- A crossing of every lane that sends. -/
def State.trainTick (s : State) : State := s.txLanes.foldl (fun t q => t.trainLane q.1) s

/-- The crossing of the hub's own count that a SWITCH_X field names: the next one with that crossing and that low part
of the orbit (09 Table 9.7). -/
def State.switchNamed (s : State) (sw : Nat) : Nat :=
  let x := sw % 2 ^ 13
  let o := sw / 2 ^ 13 % 2 ^ 11
  let dOrb := (o + 2 ^ 11 - s.time.orbit % 2 ^ 11) % 2 ^ 11
  s.time.now + ((dOrb * s.n + x : Nat) - (s.time.cross : Int)).toNat

/-- The transmit lane of a Brix port. -/
def portLane : Port → Nat
  | .p => 32
  | .q => 33

/-- In EQUALISE the neighbour's sequence at TSTATE 1 carries a tap request; at TEST or JOIN it acts as READY, and a switch
crossing that it names binds this end. Its own receiver, whose state the manual does not give, names a crossing or begins
TEST by a free choice (09 R279; notes/assumptions/16.md). -/
def State.brixEqualise (s : State) (n tstate req sw : Nat) : State :=
  let l := s.lane n
  if tstate = 3 && l.step < finalStep n then s.toSwitch n (s.switchNamed sw)
  else
    let t := if tstate = 1 then s.setLane n (l.applyReq req) else s
    let (b, u) := t.free
    if tstate = 4 || tstate = 5 || b % 2 = 1 then u.laneReady n else u

/-- A neighbour's training sequence, characters 1 to 15, on the reverse lane of a port (09 R279). When both ends have named a
switch crossing, the earlier one binds both (notes/assumptions/16.md). -/
def State.brixTrain (s : State) (pt : Port) (c : List Byte) : State :=
  let n := portLane pt
  if (crc16 (c.take 13)).toNat ≠ le c 13 2 then s
  else
    let st := byteAt c 1
    let tstate := st / 16 % 8
    let l := s.lane n
    match l.st with
    | .off | .backoff | .up => s
    | _ =>
      if st % 4 ≠ l.step then s
      else
        let t := s.trainSeen n
        let t := if l.st == .acquire then t.setLane n { t.lane n with st := .equalise, stepFrom := none } else t
        let l := t.lane n
        match l.st with
        | .equalise => t.brixEqualise n tstate (byteAt c 4) (le c 7 3)
        | .switch => if tstate = 3 then t.setLane n { l with switchAt := min l.switchAt (t.switchNamed (le c 7 3)) } else t
        | .test => if (tstate = 4 || tstate = 5) && t.testDone n then t.setLane n { l with st := .join } else t
        | _ => t

/-- K-characters of a training sequence: K28.2 opens it (09 Table 9.2). -/
def trainAllow (i : Nat) : List LChar := if i = 0 then [k28_2] else []

/-- The characters of a training sequence as received. -/
def trainChars (rd : Bool) (syms : List (BitVec 10)) : List RxChar := decodeChars trainAllow 0 rd (symbolsOf 16 syms)

/-- Characters 1 to 15 of a training sequence that reads whole. -/
def trainBody (cs : List RxChar) : Option (List Byte) :=
  let c := (cs.drop 1).filterMap RxChar.byte
  if (charAt cs 0).char = some k28_2 ∧ c.length = 15 then some c else none

/-- The disparity and the code errors of a training sequence are noted (09 R264). -/
def State.trainHeard (s : State) (l : RxLane) (syms : List (BitVec 10)) : State :=
  let r := s.rx l
  s.setRx l { r with
    rd := disparityOf r.rd (symbolsOf 16 syms)
    codeErr := min 0xFFFF (r.codeErr + ((trainChars r.rd syms).filter RxChar.err).length) }

/-- BRIX_TRAINING_SEQUENCE: sixteen symbols on a port's receive lane. Code errors are counted; a sequence that does not read
whole is discarded (09 R264, R279). -/
def execBrixTrainingSequence (port : Port) (syms : List (BitVec 10)) (s : State) : Host.Outcome State Fault Refusal :=
  let l := portRx port
  let t := s.trainHeard l syms
  .next (match trainBody (trainChars (s.rx l).rd syms) with
    | some c => t.brixTrain port c
    | none => t)

/-- The receive lane of a downlink. -/
def dlLane : Downlink → RxLane
  | .a => .dla
  | .b => .dlb

/-- A DL_TAP request is due: enabled, the downlink UP, its eye below DL_EYE_MIN, or not yet 10 % above it while requests
are being sent, and 1024 crossings since the last (09 R280). -/
def State.dlTapDue (s : State) (dl : Downlink) (eye : Nat) : Bool :=
  let r := s.rx (dlLane dl)
  let m := s.fld Reg.lnkDlEye 7 0
  bit (s.reg Reg.lnkCtl) 4 && r.stat == .up && s.anyDataUp &&
    (eye < m || (r.tapReq && eye < m + 10)) &&
    match r.tapAt with
    | some t => t + 1024 ≤ s.time.now
    | none => true

/-- The message body of a DL_TAP request (09 R280). -/
def dlTapBody (dl : Downlink) (eye : Nat) (req : Byte) : List Byte :=
  leBytes 1 (match dl with | .a => 0 | .b => 1) ++ [req] ++ leBytes 1 eye ++ leBytes 13 0

/-- The eye of a downlink has reached DL_EYE_MIN + 10 %: its requests stop (09 R280). -/
def State.dlTapEnds (s : State) (dl : Downlink) (eye : Nat) : Bool :=
  (s.rx (dlLane dl)).tapReq && s.fld Reg.lnkDlEye 7 0 + 10 ≤ eye

/-- The height that LNK_DL_EYE reports for a downlink. -/
def State.setEye (s : State) (dl : Downlink) (eye : Nat) : State :=
  match dl with
  | .a => s.setFld Reg.lnkDlEye 23 16 eye
  | .b => s.setFld Reg.lnkDlEye 31 24 eye

/-- A request has been sent for a downlink of this eye height: the time is kept. -/
def State.dlTapSent (s : State) (dl : Downlink) (eye : Nat) : State :=
  (s.setRx (dlLane dl) { s.rx (dlLane dl) with tapReq := true, tapAt := some s.time.now }).setEye dl eye

/-- The requests for a downlink stop. -/
def State.dlTapStop (s : State) (dl : Downlink) (eye : Nat) : State :=
  (s.setRx (dlLane dl) { s.rx (dlLane dl) with tapReq := false }).setEye dl eye

/-- DL_TAP: the eye height of a downlink has been measured as `eye` %: it is reported while the downlink is UP, and the hub
sends a request when one is due, or stops its requests. -/
def execDlTap (dl : Downlink) (eye : Nat) (req : Byte) (s : State) : Host.Outcome State Fault Refusal :=
  let seen := if s.rxUp (dlLane dl) then s.setEye dl eye else s
  if s.dlTapEnds dl eye then .next (s.dlTapStop dl eye)
  else match s.tryShare 0 0 fun u => u.placeMessage 0x22 (dlTapBody dl eye req) with
  | some u => whenDue seen (s.dlTapDue dl eye) (u.dlTapSent dl eye)
  | none => .next seen

end Sys2Proof.Machine
end

