-- ==== Sys2Proof/Machine/Filter.lean ====
section
/-!
DEFINITION. The filter and decimation chain (05): S1 to S4, the divider, the flags of an output, applications and
preloads, the detectors; and the records of class 4 that carry them (06 R195, R196, R199).
-/

namespace Sys2Proof.Machine

open Sys2Proof

/-! ### Arithmetic (05 R140) -/

/-- RND(v, s): rounds half toward plus infinity. -/
def rnd (v : Int) (s : Nat) : Int := if s = 0 then v else (v + 2 ^ (s - 1)) / 2 ^ s

/-- SAT_W(v), and whether it limited. -/
def satW (w : Nat) (v : Int) : Int × Bool :=
  let u := clampI (-(2 ^ (w - 1))) (2 ^ (w - 1) - 1) v
  (u, decide (u ≠ v))

/-! ### Settings in effect -/

/-- A stored register of a station's page. -/
def State.stnReg (s : State) (st a : Nat) : Word := s.reg (regKey a st)

/-- A staged register of a station as in effect in crossing `x` of the running count (05 R153). -/
def State.stnEffAt (s : State) (st a x : Nat) : Word :=
  let k := regKey a st
  if x < (s.stn st).fltAt then
    match (s.stn st).fltOld.find? fun p => p.1 == k with
    | some (_, v) => v
    | none => s.eff k
  else s.eff k

/-- FE_CH of a channel as in effect (03 R82). -/
def State.fe (s : State) (c : Nat) : Word := s.eff (Reg.feCh c)

/-- FE_CH.EN in effect (03 R81). -/
def State.chEn (s : State) (c : Nat) : Bool := bit (s.fe c) 0

/-- The filter settings of a channel (05 R152). -/
structure FltCfg where
  n1 : Nat
  n3 : Nat
  lag : Nat
  sh0 : Nat
  sh1 : Nat
  sh3 : Nat
  sh4 : Nat
  edgeMax : Nat
  p : Nat
  h : List Int
  a : List Int
  b : List Int
  toff : Int
  deriving DecidableEq, Repr

/-- The settings of channel `c` in effect in crossing `x` (05 Tables 5.3, 5.5, 5.6). -/
def State.fltCfg (s : State) (c x : Nat) : FltCfg :=
  let st := c / 16
  let k := c % 16
  let r (a : Nat) : Word := s.stnEffAt st a x
  let ch := r (Reg.stnCh k)
  let f := bits ch 1 0
  let g := r (Reg.stnFsetCfg f)
  let n1 := bits g 19 16 + 1
  let n3 := min 12 (max 1 (bits g 23 20))
  { n1 := n1
    n3 := n3
    lag := min 11 (bits g 27 24)
    sh0 := bits g 1 0
    sh1 := bits g 6 4
    sh3 := bits g 10 8
    sh4 := bits g 15 12
    edgeMax := bits g 31 28
    p := bits ch 3 2
    h := (upto 0 n1).map fun i => sext 18 (r (Reg.stnH f i)).toNat
    a := (upto 0 n3).map fun i => sext 18 (r (Reg.stnA f i)).toNat
    b := (upto 0 n3).map fun i => sext 18 (r (Reg.stnB f i)).toNat
    toff := sext 16 (r (Reg.stnToff k)).toNat }

/-- K of R156. -/
def FltCfg.k (g : FltCfg) : Nat := ceilDiv g.n1 4 + g.n3

/-! ### S1 to S4 -/

/-- RANGE of a container (04 R106). -/
def Sample.range (v : Sample) : Nat := v.cont.toNat / 2 ^ 14

/-- CODE of a container. -/
def Sample.code (v : Sample) : Nat := v.cont.toNat % 2 ^ 12

/-- EDGE and CAL of a container. -/
def Sample.edge (v : Sample) : Bool := v.cont.getLsbD 13
def Sample.cal (v : Sample) : Bool := v.cont.getLsbD 12

/-- A clipped code (03 R79). -/
def Sample.clipped (v : Sample) : Bool := v.range != 3 && (v.code == 0 || v.code == 4095)

/-- The sample of number `n`. -/
def Channel.sample (c : Channel) (n : Int) : Option Sample := c.hist.find? fun v => decide ((v.n : Int) = n)

/-- m(n) (05 R142, R143). -/
def Channel.m (c : Channel) (n : Int) : Int :=
  match c.sample n with
  | some v => v.m
  | none => 0

/-- The first sample that a chain preloaded in or before crossing `x` holds (05 R155). -/
def Channel.from_ (c : Channel) (x : Nat) : Int :=
  match c.preloads.find? fun p => p ≤ x with
  | some p => 4 * (p : Int)
  | none => 0

/-- y(n) of S1 and whether SAT_22 limited it; held values before sample `n0` are 0 (05 R145, R155). -/
def Channel.y (c : Channel) (g : FltCfg) (n0 n : Int) : Int × Bool :=
  if n < n0 then (0, false)
  else
    let acc := (g.h.zip (upto 0 g.n1)).foldl (fun acc (hi, i) =>
      let k := n - (i : Int)
      acc + (if n0 ≤ k then hi * rnd (c.m k) g.sh0 else 0)) 0
    satW 22 (rnd acc (14 + g.sh1))

/-- TIME_MER_PERIOD in effect in crossing `x` (05 R148). -/
def State.periodAt (s : State) (x : Nat) : Nat :=
  s.time.periods.foldl (fun v (w, old) => if x < w then old else v) s.period

/-- The output of channel `c` at label `x`, evaluated in crossing `x + L` (05 R146 to R150); E, t, the flags of the
chain, and whether a SAT_W of S1 to S4 limited. -/
def State.evaluate (s : State) (c x : Nat) (g : FltCfg) : Int × Int × BitVec 11 × Bool :=
  let ch := s.chan c
  let xe := x + g.lag
  let n0 := ch.from_ xe
  let ds := (upto 0 g.n3).map fun (i : Nat) => ch.y g n0 (4 * ((xe : Int) - (i : Int)) + (g.p : Int))
  let dot (w : List Int) : Int := (w.zip ds).foldl (fun acc (a, d) => acc + a * d.1) 0
  let (e, eSat) := satW 20 (rnd (dot g.a) (18 + g.sh3))
  let (f, fSat) := satW 32 (rnd (dot g.b) (6 + g.sh4))
  let yAll := (upto 0 (4 * (g.n3 - 1) + g.n1)).any fun (i : Nat) => (ch.y g n0 (4 * (xe : Int) + (g.p : Int) - (i : Int))).2
  let last : Int := 4 * (xe : Int) + g.p
  let first : Int := 4 * ((xe : Int) - g.n3 + 1) + g.p - g.n1 + 1
  let win := ch.hist.filter fun v => decide (first ≤ (v.n : Int)) && decide ((v.n : Int) ≤ last)
  let edges := (win.filter Sample.edge).length
  let p := s.periodAt xe
  let tmin : Int := bits (s.stnReg (c / 16) Reg.stnTmin) 19 0
  let noDiv := decide (e ≤ tmin) || eSat || fSat
  let tof : Int :=
    if noDiv then 0
    else roundHalfOut (f * p * 2 ^ g.sh4) (e.toNat * 2 ^ (36 + g.sh3))
  let tgt : Int := sext 17 (s.fld Reg.timePhaseTgt 16 0)
  let (t, tSat) := satW 16 (tof + roundHalfOut ((g.p * p : Nat) : Int) (2 ^ 26) + tgt.tdiv 2 + g.toff)
  let lowq := g.edgeMax < edges || noDiv || tSat
  let sat := eSat || fSat || yAll
  let fl := (if 0 < edges then 1 else 0) + (if sat || win.any (fun v => v.clipped || v.sat) then 2 else 0) +
    (if win.any Sample.cal then 32 else 0) + (if win.any (fun v => v.range == 3 && v.en) then 128 else 0) +
    (if lowq then 256 else 0)
  (e, t, BitVec.ofNat 11 fl, sat)

/-- MAXRANGE over the window of an output (06 Table 6.1). -/
def Channel.maxRange (c : Channel) (g : FltCfg) (x : Nat) (forced : Bool) : BitVec 3 :=
  let last : Int := 4 * ((x + g.lag : Nat) : Int) + g.p
  let first : Int := 4 * (((x + g.lag : Nat) : Int) - g.n3 + 1) + g.p - g.n1 + 1
  let rs := (c.hist.filter fun v => decide (first ≤ (v.n : Int)) && decide ((v.n : Int) ≤ last) && v.range != 3).map
    Sample.range
  let lo := if rs.isEmpty then 3 else rs.foldl max 0
  BitVec.ofNat 3 ((if forced then 4 else 0) + lo)

/-- Whether label `x` of a channel is suppressed (05 R156). -/
def Channel.suppressed (c : Channel) (x : Nat) : Bool :=
  c.settles.any fun r => decide (r.first ≤ (x : Int)) && decide ((x : Int) ≤ r.last)

/-- The output of a channel at label `x` as its consumers see it: suppressed labels read E = 0, t = 0 with SETTLE
(05 R150, R156). -/
def Channel.outAt (c : Channel) (x : Nat) : Option Output :=
  let o := c.outs.find? fun o => o.x == x
  if c.suppressed x then
    some ⟨x, 0, 0, 8, match o with | some o => o.en | none => true, true,
      match o with | some o => o.maxRange | none => 3, match o with | some o => o.n3 | none => 1⟩
  else o

/-- The crossing in which label `x` of channel `c` is evaluated, when it is (05 R147, R153). -/
def State.evalAt (s : State) (c x : Nat) : Option Nat :=
  let x0 := (s.stn (c / 16)).fltAt
  let lo := (s.fltCfg c (x0 - 1)).lag
  let ln := (s.fltCfg c x0).lag
  if x + lo < x0 then some (x + lo)
  else if x0 ≤ x + ln then some (x + ln)
  else none

/-- The next label of channel `c` to deliver in this crossing (05 R151); late labels of a stretch come in order
(01 R33). -/
def State.nextLabel (s : State) (c : Nat) : Option Nat :=
  let ok (x : Nat) : Bool := match s.evalAt c x with
    | some xe => xe + 5 ≤ s.time.xcount
    | none => false
  match (s.chan c).outs with
  | o :: _ => (upto (o.x + 1) 13).find? ok
  | [] =>
    if s.time.xcount < 5 then none
    else
      let xe := s.time.xcount - 5
      let lag := (s.fltCfg c xe).lag
      if lag ≤ xe then some (xe - lag) else none

/-- How many outputs of a channel the model keeps: more than a stretch of 64 µs can put a station behind (01 R33). -/
def outDepth : Nat := 2048

/-- FILTER_OUTPUT at a label. Whether the channel counts as disabled is decided by FE_CH.EN at the label's own sample, so
that labels before the gap at which EN went to 0 are still formed, over m(n) = 0 from there on: DESIGN CHOICE
(notes/assumptions/102.md). -/
def State.deliver (s : State) (c x : Nat) : State :=
  let ch := s.chan c
  let xe := (s.evalAt c x).getD x
  let g := s.fltCfg c xe
  let at_ := ch.sample (4 * (x : Int) + g.p)
  let en := match at_ with | some v => v.en | none => s.chEn c
  let n3 := (s.fltCfg c x).n3
  let forced := match at_ with | some v => v.forced | none => false
  let put (o : Output) : State := s.setChan c { ch with outs := (o :: ch.outs).take outDepth }
  if !en then put ⟨x, 0, 0, 0, false, false, ch.maxRange g x forced, n3⟩
  else
    let (e, t, fl, sat) := s.evaluate c x g
    let extra := match at_ with
      | some v => (if v.stale then 16 else 0) + (if v.fault then 64 else 0)
      | none => 0
    let u := put ⟨x, e, t, fl ||| BitVec.ofNat 11 extra, true, false, ch.maxRange g x forced, n3⟩
    if sat then u.event (regKey Reg.stnStat (c / 16)) 2 else u

/-- FILTER_OUTPUT: E(x), t(x) and the flags of output x are delivered in crossing x + L + 5. -/
def execFilterOutput (ch : Nat) (s : State) : Host.Outcome State Fault Refusal :=
  match s.nextLabel ch with
  | some x => whenDue s (ch < 512 && s.time.sampling) (s.deliver ch x)
  | none => .next s

/-! ### Applications and preloads -/

/-- Puts a suppressed range among the ranges of a channel, joined to one whose group has not yet been formed and which
it overlaps or follows (05 R157). -/
def addSettle : List Settle → Settle → List Settle
  | [], r => [r]
  | q :: t, r =>
    if !q.placed && decide (r.first ≤ q.last + 1) && decide (q.first ≤ r.last + 1) then
      (if q.first ≤ r.first then { q with last := max q.last r.last } else { r with last := max q.last r.last }) :: t
    else q :: addSettle t r

/-- Preloads the chain of channel `c` at crossing `x0` and suppresses the labels of R156. -/
def State.preload (s : State) (c x0 lOld lNew k : Nat) : State :=
  let ch := s.chan c
  let first : Int := min ((x0 : Int) - lOld) ((x0 : Int) - lNew)
  let last : Int := (x0 : Int) - lNew + k - 1
  let d := s.datumAt first.toNat
  s.setChan c { ch with
    preloads := (x0 :: ch.preloads).take 4
    settles := (addSettle ch.settles ⟨first, last, d.1, d.2, false⟩).drop
      (if 7 < ch.settles.length then 1 else 0) }

/-- Preload with the settings unchanged: a sampling-phase step, or a channel enabled (05 R155). -/
def State.preloadNow (s : State) (c : Nat) : State :=
  let g := s.fltCfg c s.time.xcount
  s.preload c s.time.xcount g.lag g.lag g.k

/-- The words of filter set `f` (05 Table 5.3). -/
def fsetAddrs (f : Nat) : List Nat :=
  Reg.stnFsetCfg f :: ((upto 0 16).map (Reg.stnH f) ++ (upto 0 12).map (Reg.stnA f) ++ (upto 0 12).map (Reg.stnB f))

/-- The staged registers of a station. -/
def stnStagedAddrs : List Nat :=
  (upto 0 4).flatMap fsetAddrs ++ (upto 0 16).map Reg.stnCh ++ (upto 0 16).map Reg.stnToff

/-- Whether an application changes, for channel position `k`, its FSET, DEC_PHASE or a field of the set it then names
(05 R155). -/
def State.fltChanges (s : State) (st k : Nat) : Bool :=
  let diff (a : Nat) : Bool := s.reg (regKey a st) != s.eff (regKey a st)
  diff (Reg.stnCh k) || (fsetAddrs (bits (s.reg (regKey (Reg.stnCh k) st)) 1 0)).any diff

/-- The committed filter values of a station take effect at x0 (05 R153 to R156). -/
def State.applyFilter (s : State) (st : Nat) : State :=
  let x0 := s.time.xcount
  let keys := (stnStagedAddrs.map fun a => regKey a st).filter fun k => s.reg k != s.eff k
  let pre := (upto 0 16).filter fun k => s.chEn (16 * st + k) && s.fltChanges st k
  let olds := pre.map fun k => (k, (s.fltCfg (16 * st + k) x0).lag)
  let t := s.setStn st { s.stn st with
    fltOld := keys.map fun k => (k, s.eff k)
    fltAt := x0
    applyAt := none }
  let t := keys.foldl (fun t k => t.setEff k (t.reg k)) t
  olds.foldl (fun t (k, lOld) =>
    let g := t.fltCfg (16 * st + k) x0
    t.preload (16 * st + k) x0 lOld g.lag g.k) t

/-- The application of a station is due in this crossing (05 R153). -/
def State.filterDue (s : State) (st : Nat) : Bool :=
  match (s.stn st).applyAt with
  | some a => s.time.cross == s.n - s.g + 12 && a + 20 ≤ s.time.now
  | none => false

/-- FILTER_APPLICATION: crossing N−G+12 of the first gap that begins 8 crossings or more after the opening APPLY. -/
def execFilterApplication (station : Nat) (s : State) : Host.Outcome State Fault Refusal :=
  whenDue s (station < 32 && s.time.sampling && s.filterDue station) (s.applyFilter station)

/-! ### Detectors -/

/-- One step of the envelope over the newest sample, the one before it being `prev` (05 R160); a preload clears it
(R155). Whether SAT_22 limits its y(n) (R140, R145). -/
def State.envStep (s : State) (c : Nat) : Nat × Bool :=
  let ch := s.chan c
  match ch.hist with
  | v :: rest =>
    let prev := match rest with | u :: _ => u.n | [] => v.n
    let e := if ch.preloads.any fun p => 4 * p ≤ v.n && prev < 4 * p then 0 else ch.env
    let x := v.n / 4
    let g := s.fltCfg c x
    let (y, sat) := ch.y g (ch.from_ x) v.n
    let edk := bits (s.stnReg (c / 16) Reg.stnDet) 11 8
    (max y.natAbs (e - e / 2 ^ edk), sat)
  | [] => (ch.env, false)

/-- e at the last sample of the window that began at crossing `first`, samples with RANGE = 11 excluded (05 R159, R160;
notes/assumptions/57.md); in a window of none but those, e at the newest one (notes/assumptions/104.md). -/
def State.envAtEnd (s : State) (c first : Nat) : Nat :=
  match (s.chan c).hist, (s.chan c).goodEnv with
  | v :: _, some (n, e) => if v.range = 3 && first ≤ n / 4 then e else (s.envStep c).1
  | _, _ => (s.envStep c).1

/-- A sample enters the detector window in progress (05 R159, R160, R161). -/
def Channel.detect (c : Channel) (v : Sample) (half : Bool) : Channel :=
  let c := if half then { c with detFlags := c.detFlags ||| 1 } else c
  if v.range = 3 then c
  else { c with
    detMax := some (match c.detMax with | some a => max a v.m | none => v.m)
    detMin := some (match c.detMin with | some a => min a v.m | none => v.m)
    detSq := c.detSq + v.m.natAbs * v.m.natAbs
    detCnt := c.detCnt + 1
    detFlags := c.detFlags ||| (if v.cal then 8 else 0) ||| (if v.clipped || v.sat then 4 else 0) }

/-- Posts the detector results of a channel; `settle`: a preload took place in the window (05 R160, R161). MAX and MIN of a
window without samples are 0: DESIGN CHOICE (notes/assumptions/104.md). -/
def State.postDetector (s : State) (c first : Nat) : State :=
  let ch := s.chan c
  let settle := ch.preloads.any fun p => first ≤ p && p ≤ s.time.xcount
  let rms := if ch.detCnt = 0 then 0 else min (2 ^ 24 - 1) (Nat.sqrt (256 * ch.detSq / ch.detCnt))
  s.setChan c { ch with
    postMax := ch.detMax.getD 0
    postMin := ch.detMin.getD 0
    postRms := rms
    postEnv := min (2 ^ 22 - 1) (s.envAtEnd c first)
    postFlags := ch.detFlags ||| (if settle then 2 else 0)
    detMax := none, detMin := none, detSq := 0, detCnt := 0, detFlags := 0 }

/-! ### Records of class 4 -/

/-- The header of a class-4 record (06 Table 6.12). -/
def monHeader (type sub len aux datum : Nat) : List Byte :=
  leBytes 2 0x3C5A ++ leBytes 1 type ++ leBytes 1 sub ++ leBytes 2 len ++ leBytes 2 aux ++ leBytes 8 datum

/-- The GAP record of a run of discarded class-4 records (06 R199). -/
def MonRun.record (r : MonRun) : List Byte :=
  monHeader 0x1F 0 24 0 r.datum.toNat ++ leBytes 4 r.len ++ leBytes 4 r.types.toNat

/-- A class-4 record that is not carried joins a run, which reaches from the first crossing of any of its records to the last
(06 R199). -/
def State.discardMonitor (s : State) (type x len datum : Nat) : State :=
  let old := s.spool.monRun
  let r : MonRun := match old with
    | some r => { r with
        datum := if x < r.firstX then BitVec.ofNat 64 datum else r.datum
        firstX := min x r.firstX
        len := max (r.firstX + r.len) (x + len) - min x r.firstX
        types := r.types ||| place 1 (type - 0x10) }
    | none => ⟨BitVec.ofNat 64 datum, x, len, place 1 (type - 0x10)⟩
  let more := r.len - match old with | some o => o.len | none => 0
  { s with
    spool := { s.spool with monRun := some r }
    trig := { s.trig with dt := { s.trig.dt with profGapX := (s.trig.dt.profGapX + more) % 2 ^ 64 } } }

/-- Places a class-4 record that concerns the crossings from running count `x` on, `len` of them; one that the share
cannot take joins a run, and a GAP record goes ahead of the next one carried (06 R195, R199; 10 R308). -/
def State.placeMonitor (s : State) (rec : List Byte) (type x len datum : Nat) : State :=
  let go (t : State) : State :=
    let t := match t.spool.monRun with
      | some r => { t with spool := { t.spool with monRun := none } }.placeRecord 4 r.record true false
      | none => t
    t.placeRecord 4 rec true false
  match s.tryShare 4 64 go with
  | some t => t
  | none => (s.gapFull 4).discardMonitor type x len datum

/-- An entry of the min/max reduction record (06 R196); a disabled channel's is 0. -/
def State.profileEntry (s : State) (c : Nat) : List Byte :=
  let ch := s.chan c
  if s.chEn c then
    leBytes 16 (toTwos 20 ch.postMax + toTwos 20 ch.postMin * 2 ^ 20 + ch.postRms * 2 ^ 40 + ch.postEnv * 2 ^ 64 +
      ch.postFlags.toNat * 2 ^ 86)
  else List.replicate 16 0

/-- DET_WIN as it acts (05 R159). -/
def State.detWin (s : State) (st : Nat) : Nat := min 12 (bits (s.stnReg st Reg.stnDet) 3 0)

/-- PROFILE_RECORD: the reduction record of a station for the window that ends now (06 R196). -/
def State.profileRecord (s : State) (st first : Nat) : State :=
  let len := s.time.xcount + 1 - first
  let d := s.datumAt first
  let dw := datumWord d.1 d.2
  if (upto first len).any (s.sagAt st) then s.discardMonitor 0x10 first len dw
  else s.placeMonitor (monHeader 0x10 st 272 len dw ++ (upto 0 16).flatMap fun k => s.profileEntry (16 * st + k))
    0x10 first len dw

/-- The first crossing of the detector window in progress: the one after the last window's, whatever has become of the Datum
since. -/
def Station.windowFrom (q : Station) : Nat :=
  match q.detAt with
  | some x => x + 1
  | none => 0

/-- What the end of a station's detector window does (05 R159 to R161, 06 R196). The window in progress at the enabling write counts
as the first: DESIGN CHOICE (notes/assumptions/112.md). -/
def State.detectorEnd (s : State) (st : Nat) : State :=
  let first := (s.stn st).windowFrom
  let t := (upto 0 16).foldl (fun t k => t.postDetector (16 * st + k) first) s
  let t := t.setStn st { t.stn st with detAt := some s.time.xcount }
  if bit (t.reg Reg.trgProfEn) st then
    let n := (t.stn st).profCnt + 1
    let t := t.setStn st { t.stn st with profCnt := n }
    if n % t.fld1 Reg.trgProfDiv 15 0 = 0 then t.profileRecord st first else t
  else t

/-- DETECTOR_WINDOW_END: the last crossing of a detector window ends (05 R159). -/
def execDetectorWindowEnd (station : Nat) (s : State) : Host.Outcome State Fault Refusal :=
  whenDue s (station < 32 && s.time.sampling &&
      ((s.time.cross + 1) % 2 ^ s.detWin station == 0 || s.time.cross + 1 == s.n) &&
      (s.stn station).detAt != some s.time.xcount) (s.detectorEnd station)

end Sys2Proof.Machine
end

