-- ==== Sys2Proof/Machine/Backsight.lean ====
section
/-!
DEFINITION. Backsight (04): trims, temperature sets, the cycle and its steps, calibration runs, faults of slices.
-/

namespace Sys2Proof.Machine

open Sys2Proof

/-- Hub-wide number of slice `j` of a station (00 R15); slice 32 is the spare. -/
def sliceNo (st j : Nat) : Nat := 33 * st + j

/-- The spare of a station. -/
def State.spare (s : State) (st : Nat) : Slice := s.slice (sliceNo st 32)

/-! ### Trims (04 R109) -/

/-- A trim limited to its range of `w` bits; TRIM_LIMIT is set when it would leave it. -/
def State.limitTrim (s : State) (w : Nat) (v : Int) : Int × State :=
  let (u, l) := satW w v
  (u, if l then s.event Reg.calStat 2 else s)

/-- A trim loaded in place of `cur`: TRIM_LIMIT is set when it was computed anew and would leave its range. -/
def State.loadTrim (s : State) (w : Nat) (due : Bool) (cur v : Int) : Int × State :=
  let u := (satW w v).1
  if due || u != cur then s.limitTrim w v else (u, s)

/-- A trim rests at an end of its range. -/
def atEnd (w : Nat) (v : Int) : Bool := v == -(2 ^ (w - 1)) || v == 2 ^ (w - 1) - 1

/-! ### Temperature sets (04 R127) -/

/-- A value of a set. -/
def TempSet.val (t : TempSet) (k : Nat) : Option Int := (t.vals.find? fun p => p.1 == k).map Prod.snd

/-- The points (temperature, value) that the sets hold of value `k`. -/
def setPoints (sets : List TempSet) (k : Nat) : List (Int × Int) :=
  sets.filterMap fun t => (t.val k).map fun v => (t.theta, v)

/-- I(θ) as a fraction; none with no set. -/
def interpolate (pts : List (Int × Int)) (th : Int) : Option (Int × Nat) :=
  let pick (better : Int → Int → Bool) (l : List (Int × Int)) : Option (Int × Int) :=
    l.foldl (fun acc p => match acc with
      | some q => if better p.1 q.1 then some p else some q
      | none => some p) none
  let lo := pick (fun a b => decide (b < a)) (pts.filter fun p => decide (p.1 ≤ th))
  let hi := pick (fun a b => decide (a < b)) (pts.filter fun p => decide (th ≤ p.1))
  match lo, hi with
  | some (t0, v0), some (t1, v1) =>
    if t0 = t1 then some (v0, 1) else some (v0 * (t1 - t0) + (v1 - v0) * (th - t0), (t1 - t0).toNat)
  | some (_, v), none => some (v, 1)
  | none, some (_, v) => some (v, 1)
  | none, none => none

/-- I(θ) − I(θ_meas), rounded to the step, halves away from zero (notes/assumptions/18.md); 0 with no set or no θ_meas. -/
def interpShift (sets : List TempSet) (k : Nat) (thMeas : Option Int) (th : Int) : Int :=
  let pts := setPoints sets k
  match thMeas with
  | some m =>
    match interpolate pts th, interpolate pts m with
    | some (a, b), some (c, d) => roundHalfOut (a * d - c * b) (b * d)
    | _, _ => 0
  | none => 0

/-- V_app = V_meas + I(θ) − I(θ_meas), rounded to the step. -/
def vApp (sets : List TempSet) (k : Nat) (meas : Int) (thMeas : Option Int) (th : Int) : Int :=
  meas + interpShift sets k thMeas th

/-- Puts values into a set. -/
def TempSet.put (t : TempSet) (th : Int) (kvs : List (Nat × Int)) (now : Nat) : TempSet :=
  ⟨th, kvs.foldl (fun v (k, x) => tabIns v k x) t.vals, now⟩

/-- The set that is replaced when 8 are in use: the least recently written but for the lowest and highest. -/
def replaceable (sets : List TempSet) : Nat :=
  let lo := sets.foldl (fun a t => min a t.theta) (sets.head?.map (·.theta) |>.getD 0)
  let hi := sets.foldl (fun a t => max a t.theta) (sets.head?.map (·.theta) |>.getD 0)
  let c := (sets.zip (upto 0 sets.length)).filter fun (t, _) => decide (lo < t.theta) && decide (t.theta < hi)
  match c.foldl (fun acc (t, i) => match acc with
      | some (w, j) => if t.written < w then some (t.written, i) else some (w, j)
      | none => some (t.written, i)) none with
  | some (_, i) => i
  | none => 0

/-- Stores results measured at `th` (04 R127 Storing). Of several sets within 1.0 °C the nearest takes them, the first of two equally
near: DESIGN CHOICE (notes/assumptions/115.md). -/
def storeSet (sets : List TempSet) (th : Int) (kvs : List (Nat × Int)) (now : Nat) : List TempSet :=
  let near := (sets.zip (upto 0 sets.length)).filter fun (t, _) => (t.theta - th).natAbs ≤ 16
  match near.foldl (fun acc (t, i) => match acc with
      | some (d, j) => if (t.theta - th).natAbs < d then some ((t.theta - th).natAbs, i) else some (d, j)
      | none => some ((t.theta - th).natAbs, i)) none with
  | some (_, i) => listSet sets i ((sets.drop i).headD ⟨th, [], now⟩ |>.put th kvs now)
  | none =>
    if sets.length < 8 then sets ++ [TempSet.put ⟨th, [], now⟩ th kvs now]
    else listSet sets (replaceable sets) (TempSet.put ⟨th, [], now⟩ th kvs now)

/-- Value number of trim `i` (0 OFFS, 1 GAIN, 2 SKEW) of slice `j`. -/
def trimKey (j i : Nat) : Nat := if j = 32 then i else 3 * (j % 2) + i

/-- The sets that hold the values of slice `j` of a station. -/
def State.setsOf (s : State) (st j : Nat) : List TempSet :=
  if j = 32 then (s.stn st).spareSets else (s.chan (16 * st + j / 2)).sets

/-- Stores values among the sets of slice `j`. -/
def State.storeFor (s : State) (st j : Nat) (kvs : List (Nat × Int)) : State :=
  let t := s.stn st
  if j = 32 then s.setStn st { t with spareSets := storeSet t.spareSets t.theta kvs s.time.now }
  else
    let c := 16 * st + j / 2
    let ch := s.chan c
    s.setChan c { ch with sets := storeSet ch.sets t.theta kvs s.time.now }

/-- V_app of trim `i` of a slice, as last computed, before its limit (04 R127). -/
def Slice.app (v : Slice) (i : Nat) : Int :=
  match i with
  | 0 => v.measOffs + v.shift.1
  | 1 => v.measGain + v.shift.2.1
  | _ => v.measSkew + v.shift.2.2

/-- What trim `i` of slice `j` comes to with its latest measured value (04 R127), limited to its range, with TRIM_LIMIT where it
would leave it (04 R109). -/
def State.trimNow (s : State) (st j i : Nat) : Int × State :=
  s.limitTrim (match i with | 0 => 9 | 1 => 12 | _ => 10) ((s.slice (sliceNo st j)).app i)

/-- A slice's trims have been measured at θ, as they are loaded now: they are its V_meas, and they are stored
(04 R127). -/
def State.measured (s : State) (st j : Nat) : State :=
  let n := sliceNo st j
  let th := (s.stn st).theta
  let (o, s) := s.trimNow st j 0
  let (g, s) := s.trimNow st j 1
  let (k, s) := s.trimNow st j 2
  let t := s.setSlice n { s.slice n with
    measOffs := o, measGain := g, measSkew := k
    theta := some th, shift := (0, 0, 0) }
  let v := t.slice n
  t.storeFor st j [(trimKey j 0, v.measOffs), (trimKey j 1, v.measGain), (trimKey j 2, v.measSkew)]

/-- A completed step's temperature (04 Table 4.6 CAL_TEMP). -/
def State.stepTemp (s : State) (st : Nat) : State :=
  let t := s.stn st
  s.setStn st { t with thetaMeas := t.theta }

/-! ### Stale (04 R131) -/

/-- Calibration age of a channel, orbits; none before both slices have been visited. -/
def State.calAge (s : State) (c : Nat) : Option Nat :=
  match (s.chan c).visitEven, (s.chan c).visitOdd with
  | some a, some b => some (s.time.orbitNo - min a b)
  | _, _ => none

/-- A slice's θ_meas differs from θ by more than `lim`. -/
def State.drifted (s : State) (st j lim : Nat) : Bool :=
  match (s.slice (sliceNo st j)).theta with
  | some m => decide (lim < ((s.stn st).theta - m).natAbs)
  | none => false

/-- A channel is stale. -/
def State.chStale (s : State) (c : Nat) : Bool :=
  let j := 2 * (c % 16)
  let lim := s.fld Reg.calThr 31 16
  match s.calAge c with
  | some a => s.fld Reg.calAge 31 16 < a || s.drifted (c / 16) j lim || s.drifted (c / 16) (j + 1) lim
  | none => true

/-! ### Application in the gap (04 R110, R111, R127) -/

/-- Interpolates a slice's trims anew at θ (04 R127 Timing). -/
def Slice.interpolated (v : Slice) (sets : List TempSet) (j : Nat) (th : Int) : Slice :=
  let f (i : Nat) : Int := interpShift sets (trimKey j i) v.theta th
  { v with shift := (f 0, f 1, f 2) }

/-- Puts a slice's trims into effect at the first gap crossing; what interpolation adds changes only when it is due. -/
def State.applySlice (s : State) (n : Nat) : State :=
  let st := n / 33
  let t := s.stn st
  let due := t.interpDue
  let v := if due then (s.slice n).interpolated (s.setsOf st (n % 33)) (n % 33) t.theta else s.slice n
  let (o, s) := s.loadTrim 9 due v.offs (v.app 0)
  let (g, s) := s.loadTrim 12 due v.gain (v.app 1)
  let (k, s) := s.loadTrim 10 due v.skew (v.app 2)
  s.setSlice n { v with offs := o, gain := g, skew := k, shown := (o, g, k) }

/-- A ratio in effect: V_app limited to its field. -/
def Const.apply (k : Const) (sets : List TempSet) (key : Nat) (due : Bool) (th : Int) : Const :=
  let f := if due then interpShift sets key k.theta th else k.shift
  { k with eff := clampI 0 (2 ^ 24 - 1) (k.meas + f), shift := f }

/-- Puts a channel's constants into effect at the first gap crossing. -/
def State.applyConsts (s : State) (c : Nat) : State :=
  let ch := s.chan c
  let t := s.stn (c / 16)
  s.setChan c { ch with
    ped64 := { ch.ped64 with eff := ch.ped64.meas }
    ped8 := { ch.ped8 with eff := ch.ped8.meas }
    ped1 := { ch.ped1 with eff := ch.ped1.meas }
    ratio8 := ch.ratio8.apply ch.sets 6 t.interpDue t.theta
    ratio1 := ch.ratio1.apply ch.sets 7 t.interpDue t.theta }

/-- SPARE_SKEW in effect: V_app from its value as last measured, with the spare's θ_meas (04 R117, R127). -/
def State.applySpareSkew (s : State) (st : Nat) : State :=
  let q := s.stn st
  let f := if q.interpDue then interpShift q.spareSets 3 (s.spare st).theta q.theta else q.skShift
  s.setStn st { q with spareSkew := clampI (-512) 511 (q.skMeas + f), skShift := f }

/-- CAL_W_AGE as it shows until the next gap crossing (04 R139). -/
def State.showAge (s : State) (c : Nat) : State :=
  s.setChan c { s.chan c with shownAge := (min 0xFFFF ((s.calAge c).getD 0xFFFF), s.chStale c) }

/-- TEMP_INTERPOLATION and the application of what has been measured, in the whole hub (04 R110, R111, R127). -/
def State.applyCal (s : State) : State :=
  let t := (s.slices.map Prod.fst).foldl (fun t n => t.applySlice n) s
  let t := (t.chans.map Prod.fst).foldl (fun t c => (t.applyConsts c).showAge c) t
  let t := (t.stations.map Prod.fst).foldl (fun t st => t.applySpareSkew st) t
  (t.stations.map Prod.fst).foldl (fun t st =>
    let q := t.stn st
    if q.interpDue then t.setStn st { q with interpDue := false, lastTheta := q.theta } else t) t

/-- TEMP_READ: the junction temperature of a station, and whether interpolated values fall due (04 R126, R127). -/
def State.readTemp (s : State) (st : Nat) (v : BitVec 16) : State :=
  let t := s.stn st
  let th := v.toInt
  s.setStn st { t with theta := th, interpDue := t.interpDue || 4 ≤ (th - t.lastTheta).natAbs }

/-! ### Faults (04 R132 to R136) -/

/-- Records a fault of converter `j` (04 R136): the first self-check error, or the hand-over with none
(notes/assumptions/19.md), the hand-over at running count `x`, and the converter. -/
def State.recordFault (s : State) (st j x : Nat) : State :=
  let d := s.datumAt x
  let f := ((s.slice (sliceNo st j)).firstErr).getD d
  let put64 (t : State) (a v : Nat) : State :=
    (t.setReg a (BitVec.ofNat 32 v)).setReg (a + 4) (BitVec.ofNat 32 (v / 2 ^ 32))
  let t := put64 s Reg.calFaultFirst (datumWord f.1 f.2)
  let t := put64 t Reg.calFaultHandover (datumWord d.1 d.2)
  (t.setReg Reg.calFaultInfo (place st 8 ||| place j 0)).event Reg.calStat 4

/-- Backsight of a station stops, and a run in progress or requested ends in that crossing (04 R129, R133). -/
def State.stopBacksight (s : State) (st : Nat) : State :=
  let t := s.stn st
  let u := s.setStn st { t with st := 3, job := none, handed := none, runReq := false, runLeft := [], owed := none }
  ({ u with power := { u.power with calWait := delNat u.power.calWait st } }).tryCalEnd

/-- A trim of slice `j`'s channel is applied at running count `x` (03 Table 3.7). -/
def State.noteTrim (s : State) (st j x : Nat) : State :=
  if j < 32 then
    let c := 16 * st + j / 2
    s.setChan c { s.chan c with trims := (x :: (s.chan c).trims).take 4 }
  else s

/-- A visited slice returns to service at running count `x` with the trims it had before the visit; one that still delivers goes on
(04 R133). -/
def State.returnVisited (s : State) (st x : Nat) : State :=
  match (s.stn st).handed, (s.stn st).job with
  | some i, some b =>
    let n := sliceNo st i
    let (o, g, k) := b.loaded
    (s.setSlice n { s.slice n with offs := o, gain := g, skew := k, measGain := b.gainBefore }).noteTrim st i x
  | _, _ => s

/-- Marks converter `j` of a station faulty. -/
def State.markFaulty (s : State) (st j : Nat) : State :=
  let n := sliceNo st j
  let t := s.setSlice n { s.slice n with faulty := true }
  t.setStn st { t.stn st with failed := min 31 ((t.stn st).failed + 1) }

/-- HALF_RATE: slice `j` has no converter left from crossing `x` on (04 R135). -/
def State.loseSlice (s : State) (st j x : Nat) : State :=
  let n := sliceNo st j
  let t := s.setSlice n { s.slice n with lostFrom := some x }
  let mate := if j % 2 = 0 then j + 1 else j - 1
  if (t.slice (sliceNo st mate)).lostFrom.isSome then t.event Reg.calStat 5
  else
    let q := t.stn st
    t.setStn st { q with halfCh := some (q.halfCh.getD (j / 2)) }

/-- SPARE_FAULT: the spare becomes faulty (04 R134). A slice that it was visiting returns in the present crossing: DESIGN
CHOICE (notes/assumptions/90.md). That return is the hand-over that R136 records; where the spare delivers nothing there is
none, and the Datum of crossing x + 2 is recorded: DESIGN CHOICE (notes/assumptions/101.md). -/
def State.spareFaulty (s : State) (st : Nat) : State :=
  let x := s.time.xcount + 2
  let t := (s.markFaulty st 32).recordFault st 32
    (if (s.stn st).spareUsed.isNone && (s.stn st).handed.isSome then s.time.xcount else x)
  let t := t.setStn st { t.stn st with spareFault := true }
  match (t.stn st).spareUsed with
  | some j => t.loseSlice st j x
  | none => (t.returnVisited st s.time.xcount).stopBacksight st

/-- A slice found faulty by a visit: the spare delivers its containers for good, from running count `x` on
(04 R116, R133). -/
def State.faultByVisit (s : State) (st j x : Nat) : State :=
  let t := (s.markFaulty st j).recordFault st j x
  let t := t.setStn st { t.stn st with spareUsed := some j }
  t.stopBacksight st

/-- A slice found faulty by its self-check or its trims: the spare takes its conversions from crossing x + 2, or the
channel runs at half rate (04 R133, R135). -/
def State.faultInService (s : State) (st j : Nat) : State :=
  let x := s.time.xcount + 2
  let t := (s.markFaulty st j).recordFault st j x
  let q := t.stn st
  if q.spareUsed.isSome || q.spareFault then t.loseSlice st j x
  else
    let t := t.returnVisited st x
    (t.setStn st { t.stn st with spareUsed := some j, spareFrom := x, spareBefore := q.handed }).stopBacksight st

/-- A converter meets R132: self-check errors, or trims that rest at an end of their range. -/
def State.converterBad (s : State) (st j : Nat) : Bool :=
  let v := s.slice (sliceNo st j)
  !v.faulty && (v.hardErr || 8 ≤ v.limitRun || 8 ≤ v.gainRun)

/-- SLICE_FAULT. -/
def execSliceFault (station slice : Nat) (s : State) : Host.Outcome State Fault Refusal :=
  whenDue s (station < 32 && slice < 33 && s.converterBad station slice)
    (if slice = 32 then s.spareFaulty station else s.faultInService station slice)

/-- A conversion of converter `j` with the outcome of its self-check (04 R104, R132). -/
def State.converted (s : State) (st j : Nat) (err : Bool) : State :=
  let n := sliceNo st j
  let v := s.slice n
  if err then
    let errs := (v.convs :: v.selfErrs).filter fun c => v.convs < c + 1024
    s.setSlice n { v with
      convs := v.convs + 1
      selfErrs := errs
      hardErr := v.hardErr || s.fld1 Reg.calCtl 15 8 ≤ errs.length
      firstErr := some (v.firstErr.getD (s.time.orbit, s.time.cross)) }
  else s.setSlice n { v with convs := v.convs + 1 }

/-! ### Pedestals and offset equalisation (04 R120) -/

/-- A new pedestal with its limit of 16 bits. -/
def State.limitPed (s : State) (v : Int) : Int × State :=
  let u := clampI 0 0xFFFF v
  (u, if u = v then s else s.event Reg.calStat 2)

/-- The converter that delivers the odd samples of a channel when no visit is in progress. -/
def State.oddConverter (s : State) (c : Nat) : Nat :=
  let j := 2 * (c % 16) + 1
  if (s.stn (c / 16)).spareUsed = some j then 32 else j

/-- PED64 and the odd slice's OFFS from both parity sums (rounding: notes/assumptions/18.md). -/
def State.pedestal (s : State) (c : Nat) : State :=
  let ch := s.chan c
  let p := roundHalfOut (16 * ((ch.evenSum + ch.oddSum : Nat) : Int)) (ch.evenCnt + ch.oddCnt)
  let d := roundHalfOut (8 * ((ch.oddSum * ch.evenCnt : Nat) : Int) - 8 * ((ch.evenSum * ch.oddCnt : Nat) : Int))
    (ch.evenCnt * ch.oddCnt)
  let t := s.setChan c { ch with
    ped64 := { ch.ped64 with meas := p }
    evenSum := 0, evenCnt := 0, oddSum := 0, oddCnt := 0, pedFrom := s.time.orbitNo }
  let n := sliceNo (c / 16) (s.oddConverter c)
  let v := t.slice n
  let (o, t) := t.limitTrim 9 (v.app 0 - clampI (-4) 4 d)
  t.setSlice n { v with measOffs := v.measOffs + (o - v.app 0), limitRun := if atEnd 9 o then v.limitRun + 1 else 0 }

/-- PEDESTAL_UPDATE: PED_ORBITS orbits are over and each sum holds 256 samples or more; sums that hold fewer when the orbits
end go on past them: DESIGN CHOICE (notes/assumptions/100.md). A PED_ORBITS of 0, outside its
range, acts as 1: DESIGN CHOICE (notes/assumptions/90.md). -/
def execPedestalUpdate (ch : Nat) (s : State) : Host.Outcome State Fault Refusal :=
  let c := s.chan ch
  whenDue s (ch < 512 && c.pedFrom + s.fld1 Reg.calAge 7 0 ≤ s.time.orbitNo && 256 ≤ c.evenCnt && 256 ≤ c.oddCnt) (s.pedestal ch)

/-! ### Steps of the cycle -/

/-- MODE as it acts: 0 OFF, 1 CONTINUOUS, 2 TRIGGERED (04 R112). -/
def State.calMode (s : State) : Nat :=
  let m := s.fld Reg.calCtl 1 0
  if m = 3 then 1 else m

/-- Step `i` of a cycle (04 R113). -/
def cycleStep (i : Nat) : CalStep :=
  if i < 48 then
    match i % 3 with
    | 0 => .visit (2 * (i / 3))
    | 1 => .visit (2 * (i / 3) + 1)
    | _ => .shadow (i / 3)
  else .selfCal

/-- A step that is run: those of a disabled channel are skipped (04 R113). -/
def State.stepRuns (s : State) (st : Nat) : CalStep → Bool
  | .visit j => s.chEn (16 * st + j / 2)
  | .shadow k => s.chEn (16 * st + k)
  | .selfCal => true

/-- A step as the cycle comes to it. -/
def CalNext.plain (step : CalStep) : CalNext := ⟨step, false, none⟩

/-- No samples compared. -/
def ParRun.zero : ParRun := ⟨0, 0, 0⟩

/-- No pairs summed. -/
def ShadowSums.zero : ShadowSums := ⟨0, 0, 0, 0, 0, 0, 0, 0, 0, 0⟩

/-- Begins a step in a station at this gap crossing (04 R113, Table 4.3, R114). A SHADOW_ORBITS of 0, outside its range,
acts as 1: DESIGN CHOICE (notes/assumptions/90.md). -/
def State.beginStep (s : State) (st : Nat) (w : CalNext) : State :=
  let step := w.step
  let (ph, left, ends) : CalPhase × Nat × Nat := match step with
    | .visit _ => (.lead, 1, 0)
    | .shadow _ => (.shadowing, s.fld1 Reg.calShadow 7 0, 0)
    | .selfCal => (.selfCalibrating, ceilDiv 32768 s.n, s.time.xcount + 32768)
  let job : CalJob := {
    step := step, phase := ph, ends := ends, left := left, handedX := 0
    v := ceilDiv 32800 s.n
    entryRetried := w.entryRetried, exitRetried := false
    par := .zero, shadow := .zero, offlineDone := false
    gainBefore := 0, loaded := (0, 0, 0)
    repeat_ := w.repeat_, discard := false }
  s.setStn st { s.stn st with job := some job }

/-- A calibration run has ended in a station (04 R129). -/
def State.runEnd (s : State) (st : Nat) : State :=
  let t := s.setStn st { s.stn st with st := 0, runReq := false, runLeft := [], job := none }
  let t := t.setFld Reg.calStat 31 16 (t.fld Reg.calStat 31 16 + 1)
  ({ t with power := { t.power with calWait := delNat t.power.calWait st } }).tryCalEnd

/-- θ has moved by more than CAL_DT from the θ_meas of a slice that takes part (04 R129). -/
def State.runByTemp (s : State) (st : Nat) : Bool :=
  let lim := s.fld Reg.calThr 15 0
  s.drifted st 32 lim || (upto 0 32).any fun j => s.chEn (16 * st + j / 2) && s.drifted st j lim

/-- The steps of a calibration run: the visits and one self-calibration (04 R129). -/
def State.runSteps (s : State) (st : Nat) : List CalNext :=
  ((((upto 0 32).map CalStep.visit).filter (s.stepRuns st)) ++ [CalStep.selfCal]).map CalNext.plain

/-- E4 serves, and the hub has reached the phases in which Backsight runs (notes/assumptions/20.md). -/
def State.backsightUp (s : State) : Bool :=
  (s.engine 4).running && !(s.engine 4).restarting &&
    (s.power.phase == .cal || s.power.phase == .join || s.power.phase == .run)

/-- The cycle's next step: the one that it owes (04 R116, R130), else the first one that is run from the step it has come
to (04 R113). -/
def State.cycleNext (s : State) (st : Nat) : State :=
  let q := s.stn st
  match q.owed.filter fun w => s.stepRuns st w.step with
  | some w => (s.setStn st { q with st := 1, owed := none }).beginStep st w
  | none =>
    match (upto 0 49).find? fun i => s.stepRuns st (cycleStep ((q.idx + i) % 49)) with
    | some i =>
      let k := (q.idx + i) % 49
      (s.setStn st { q with st := 1, idx := k, owed := none }).beginStep st (.plain (cycleStep k))
    | none => s

/-- The next step of the run in progress, without those of channels that have been disabled (04 R113, R129). -/
def State.runNext (s : State) (st : Nat) : State :=
  let q := s.stn st
  match q.runLeft.dropWhile fun w => !s.stepRuns st w.step with
  | w :: rest => (s.setStn st { q with st := 2, runReq := true, runLeft := rest }).beginStep st w
  | [] => s

/-- A step boundary of a station: a run starts or goes on, or the cycle takes its next step (04 R112, R113, R129). Steps
wait while MODE is OFF, and so does a run requested or in progress: DESIGN CHOICE (notes/assumptions/90.md). -/
def State.nextStep (s : State) (st : Nat) : State :=
  let q := s.stn st
  if q.st = 3 then s
  else if s.calMode = 0 ∨ !s.backsightUp then s.setStn st { q with st := if q.runLeft.isEmpty then 0 else q.st }
  else if !q.runLeft.isEmpty then s.runNext st
  else if q.runReq || s.runByTemp st then State.runNext (s.setStn st { q with runLeft := s.runSteps st }) st
  else if s.calMode = 1 then s.cycleNext st
  else s.setStn st { q with st := 0 }

/-- A step that goes ahead of all others: of the run in progress, or of the cycle. -/
def State.owe (s : State) (st : Nat) (w : CalNext) : State :=
  let q := s.stn st
  let q := { q with job := none }
  s.setStn st (if q.st = 2 then { q with runLeft := w :: q.runLeft } else { q with owed := some w })

/-- The step of a station has ended: the cycle moves on and counts, a run ends after its last step; a discarded step is
repeated, and a visit follows the self-calibration inserted ahead of it (04 R113, R116, R129, R130). -/
def State.stepDone (s : State) (st : Nat) (b : CalJob) : State :=
  let q := s.stn st
  if q.st = 3 then s.setStn st { q with job := none }
  else if b.discard then (s.owe st ⟨b.step, b.entryRetried, b.repeat_⟩).nextStep st
  else
    match b.repeat_ with
    | some j => (s.owe st ⟨.visit j, true, none⟩).nextStep st
    | none =>
      let s := s.setStn st { q with job := none }
      let s :=
        if q.st = 2 then (if q.runLeft.isEmpty then s.runEnd st else s)
        else
          let s := s.setStn st { s.stn st with idx := (q.idx + 1) % 49 }
          if b.step = .selfCal then s.setFld Reg.calStat 31 16 (s.fld Reg.calStat 31 16 + 1) else s
      s.nextStep st

/-- The comparison of a parallel run passes (04 R115). One that a disabled channel leaves short of samples fails: DESIGN CHOICE
(04 R116; notes/assumptions/90.md). -/
def State.parPass (s : State) (p : ParRun) : Bool :=
  p.cnt == 64 && p.sumD.natAbs ≤ 4 * s.fld Reg.calCmp 15 0 && p.maxD ≤ s.fld Reg.calCmp 31 16

/-- OFFS steps of a passing comparison: round(mean d / 0.125). -/
def ParRun.steps (p : ParRun) : Int := roundHalfOut p.sumD 8

/-- HAND_OVER: the entry comparison at the hand-over crossing (04 R114 to R116). A comparison that fails in a step to be
discarded finds no fault: the step is repeated (04 R130). -/
def State.handOver (s : State) (st j : Nat) (b : CalJob) : State :=
  if s.parPass b.par then
    let n := sliceNo st 32
    let v := s.slice n
    let (o, s) := s.limitTrim 9 (v.offs + b.par.steps)
    let s := s.setSlice n { v with measOffs := v.measOffs + (o - v.offs), offs := o }
    let u := s.slice (sliceNo st j)
    s.setStn st { s.stn st with
      handed := some j
      job := some { b with
        phase := .offline, ends := s.time.xcount + 32768, left := b.v, par := .zero, offlineDone := false
        handedX := s.time.xcount, gainBefore := u.measGain, loaded := (u.offs, u.gain, u.skew) } }
  else if b.discard then s.stepDone st b
  else if b.entryRetried then s.faultByVisit st j s.time.xcount
  else (s.owe st ⟨.selfCal, false, some j⟩).nextStep st

/-- τ or the spare's skew from its sums, 0.1 ps, limited to ±2.0 ps (04 R117, R125); `h` is 1 for sums in codes and 2 for
sums in half codes. -/
def State.skewOf (s : State) (num den : Int) (h : Nat) : Int :=
  clampI (-20) 20 (roundHalfOut (s.period * 10 * num) (2 ^ 25 * h * den.toNat))

/-- The skew update of an odd slice at its hand-back (04 R125). -/
def State.skewUpdate (s : State) (st j : Nat) : State :=
  let c := 16 * st + j / 2
  let ch := s.chan c
  if j % 2 = 1 ∧ 1024 ≤ ch.skCnt then
    let n := sliceNo st j
    let v := s.slice n
    (s.setSlice n { v with measSkew := v.measSkew - s.skewOf ch.skRes ch.skSq 2 }).setChan c { ch with skRes := 0, skSq := 0, skCnt := 0 }
  else s

/-- HAND_BACK: the exit comparison (04 R114 to R116, R125, R127, R131). -/
def State.handBack (s : State) (st j : Nat) (b : CalJob) : State :=
  if b.discard then
    ((s.returnVisited st s.time.xcount).setStn st { s.stn st with handed := none }).stepDone st b
  else if s.parPass b.par then
    let n := sliceNo st j
    let v := s.slice n
    let s := (s.setSlice n { v with measOffs := v.measOffs - b.par.steps }).skewUpdate st j
    let s := ((s.measured st j).stepTemp st)
    let c := 16 * st + j / 2
    let ch := s.chan c
    let s := s.setChan c (if j % 2 = 0 then { ch with visitEven := some s.time.orbitNo }
      else { ch with visitOdd := some s.time.orbitNo })
    (s.setStn st { s.stn st with handed := none }).stepDone st b
  else if b.exitRetried then s.faultByVisit st j b.handedX
  else
    s.setStn st { s.stn st with job := some { b with
      phase := .offline, ends := s.time.xcount + 32768, left := b.v, par := .zero
      offlineDone := false, exitRetried := true } }

/-- The new value of a ratio under R124: applied, held back, or forced at the third time. -/
def State.putRatio (s : State) (k : Const) (run : Nat) (v th : Int) : Const × Nat × State :=
  let ap : Const := { meas := v, eff := v, theta := some th, shift := 0 }
  if 5 * k.eff.natAbs < 1000 * (v - k.eff).natAbs then
    let s := s.event Reg.calStat 3
    if 2 ≤ run then (ap, 0, s) else (k, run + 1, s)
  else (ap, 0, s)

/-- RATIO_UPDATE: pedestals and ratios at the end of a shadow interval; the ratios it set are stored among the
temperature sets (04 R123, R124, R127). -/
def State.shadowEnd (s : State) (st pos : Nat) (w : ShadowSums) : State :=
  let c := 16 * st + pos
  let th := (s.stn st).theta
  let minN := s.fld Reg.calShadow 31 16
  let ped (s : State) (sum n : Nat) (k : Const) : Const × State :=
    if 256 ≤ n then
      let (p, s) := s.limitPed (roundHalfOut (16 * (sum : Int)) n)
      ({ k with meas := p, eff := p, theta := some th }, s)
    else (k, s)
  let ch := s.chan c
  let (p8, s) := ped s w.p8 w.n8 ch.ped8
  let (p1, s) := ped s w.p1 w.n1 ch.ped1
  let (r8, j8, s) :=
    if minN ≤ w.k8 ∧ 0 < w.xx8 then
      s.putRatio ch.ratio8 ch.jump8 (clampI 0 (2 ^ 24 - 1) (roundHalfOut (65536 * w.xy8) w.xx8.toNat)) th
    else (ch.ratio8, 0, s)
  let (r1, j1, s) :=
    if minN ≤ w.k1 ∧ 0 < w.xx1 then
      s.putRatio ch.ratio1 ch.jump1 (clampI 0 (2 ^ 24 - 1) (roundHalfOut (r8.eff * w.xy1) w.xx1.toNat)) th
    else (ch.ratio1, 0, s)
  let t := s.setChan c { ch with ped8 := p8, ped1 := p1, ratio8 := r8, ratio1 := r1, jump8 := j8, jump1 := j1 }
  let kvs := (if minN ≤ w.k8 ∧ 0 < w.xx8 ∧ j8 = 0 then [(6, r8.meas)] else []) ++
    (if minN ≤ w.k1 ∧ 0 < w.xx1 ∧ j1 = 0 then [(7, r1.meas)] else [])
  (if kvs.isEmpty then t else t.storeFor st (2 * pos) kvs).stepTemp st

/-- SPARE_SKEW at a self-calibration of the spare (04 R117): the value that it comes to is its V_meas (04 R127). -/
def State.spareSkewUpdate (s : State) (st : Nat) : State :=
  let q := s.stn st
  if 1024 ≤ q.skCnt ∧ 0 < q.skMm then
    let v := clampI (-512) 511 (q.spareSkew + s.skewOf q.skDm q.skMm 1)
    s.setStn st { q with spareSkew := v, skMeas := v, skShift := 0, skDm := 0, skMm := 0, skCnt := 0 }
  else s.setStn st { q with skMeas := q.spareSkew, skShift := 0 }

/-- SPARE_SELFCAL_END: the self-calibration step of the spare ends (04 R113, R117, R118, R127). -/
def State.selfCalEnd (s : State) (st : Nat) (b : CalJob) : State :=
  if b.discard then s.stepDone st b
  else
    let s := (s.spareSkewUpdate st).measured st 32
    let s := s.storeFor st 32 [(3, (s.stn st).skMeas)]
    (s.stepTemp st).stepDone st b

/-- What a gap crossing does to the step in progress in a station, and the next step (04 R113 to R116). -/
def State.stationGap (s : State) (st : Nat) : State :=
  match (s.stn st).job with
  | none => s.nextStep st
  | some b =>
    if 1 < b.left then s.setStn st { s.stn st with job := some { b with left := b.left - 1 } }
    else
      match b.step, b.phase with
      | .visit j, .lead => s.handOver st j b
      | .visit j, _ => if b.offlineDone then s.handBack st j b else s
      | .shadow k, _ => (if b.discard then s else s.shadowEnd st k b.shadow).stepDone st b
      | .selfCal, _ => if b.offlineDone then s.selfCalEnd st b else s

/-! ### Offline phases (04 R118) -/

/-- Σ (2i − 15) S_i over the 16 level sums. -/
def slopeNum (sums : List Nat) : Int :=
  (sums.zip (upto 0 16)).foldl (fun acc (v, i) => acc + (2 * (i : Int) - 15) * v) 0

/-- The slope is `slopeNum / slopeDen` codes per code: levels 240 codes apart, 4096 conversions each. -/
def slopeDen : Nat := 4096 * 120 * 1360

/-- The largest residual from the fitted line exceeds 2.0 codes. -/
def residualBad (sums : List Nat) : Bool :=
  let total : Int := (sums.foldl (· + ·) 0 : Nat)
  let b := slopeNum sums
  (sums.zip (upto 0 16)).any fun (v, i) =>
    2 * 4096 * 21760 < (21760 * (v : Int) - 1360 * total - 16 * (2 * (i : Int) - 15) * b).natAbs

/-- The GAIN that makes the fitted slope 1.0 from a present GAIN (notes/assumptions/18.md). -/
def newGain (sums : List Nat) (gain : Int) : Int :=
  let b := slopeNum sums
  gain + roundHalfOut ((65536 + gain) * ((slopeDen : Int) - b)) b.toNat

/-- Whether the measurement passes (04 R118). -/
def levelsPass (sums : List Nat) (gain : Int) : Bool :=
  decide (0 < slopeNum sums) && !residualBad sums && !(satW 12 (newGain sums gain)).2

/-- OFFLINE_PHASE_END at its crossing. A new GAIN is loaded at once: the slice does not deliver, and it makes its exit run
with it (04 R110, R114). -/
def State.offlineEnd (s : State) (st : Nat) (b : CalJob) (sums : List Nat) : State :=
  let s := s.setStn st { s.stn st with job := some { b with offlineDone := true, phase := .exitWait } }
  if b.discard then s
  else
    let j := match b.step with | .visit j => j | _ => 32
    let n := sliceNo st j
    let v := s.slice n
    if levelsPass sums v.gain then
      let g := newGain sums v.gain
      let t := s.setSlice n { v with
        measGain := v.measGain + (g - v.gain), gain := g, gainRun := if atEnd 12 g then v.gainRun + 1 else 0 }
      t.noteTrim st j s.time.xcount
    else if j = 32 then s.spareFaulty st
    else s.faultByVisit st j b.handedX

/-- OFFLINE_PHASE_END: the offline phase of a visit, or the spare's own measurement, has run for 32,768 crossings. -/
def execOfflinePhaseEnd (station : Nat) (levelSums : List Nat) (s : State) : Host.Outcome State Fault Refusal :=
  match (s.stn station).job with
  | some b =>
    whenDue s (station < 32 && levelSums.length == 16 && !b.offlineDone &&
        (b.phase == .offline || b.phase == .selfCalibrating) && b.ends ≤ s.time.xcount) (s.offlineEnd station b levelSums)
  | none => .next s

/-- An offline phase that ends in or before this crossing has not been ended. -/
def State.offlineOverdue (s : State) : Bool :=
  s.stations.any fun (_, q) => match q.job with
    | some b => !b.offlineDone && (b.phase == .offline || b.phase == .selfCalibrating) && b.ends ≤ s.time.xcount
    | none => false

/-! ### Saving the temperature sets (04 R128) -/

/-- The V_meas values of a channel, by value number. -/
def State.chanMeas (s : State) (c : Nat) : List (Nat × Int × Option Int) :=
  let one (j : Nat) : List (Nat × Int × Option Int) :=
    let v := s.slice (sliceNo (c / 16) j)
    [(trimKey j 0, v.measOffs, v.theta), (trimKey j 1, v.measGain, v.theta), (trimKey j 2, v.measSkew, v.theta)]
  let ch := s.chan c
  one (2 * (c % 16)) ++ one (2 * (c % 16) + 1) ++ [(6, ch.ratio8.meas, ch.ratio8.theta), (7, ch.ratio1.meas, ch.ratio1.theta)]

/-- The V_meas values of a spare. -/
def State.spareMeas (s : State) (st : Nat) : List (Nat × Int × Option Int) :=
  let v := s.spare st
  [(0, v.measOffs, v.theta), (1, v.measGain, v.theta), (2, v.measSkew, v.theta), (3, (s.stn st).skMeas, v.theta)]

/-- Writes the temperature sets and their V_meas values to the settings area: SAVED is set. -/
def State.saveSets (s : State) : State :=
  let cs := (upto 0 512).filterMap fun c =>
    if (s.chan c).sets.isEmpty then none else some (c, (CalSave.mk (s.chan c).sets (s.chanMeas c)))
  let ss := (upto 0 32).filterMap fun j =>
    if (s.stn j).spareSets.isEmpty then none else some (512 + j, (CalSave.mk (s.stn j).spareSets (s.spareMeas j)))
  { s with
    fw := { s.fw with settings := { s.fw.settings with sets := cs ++ ss } }
    time := { s.time with saveAt := some s.time.now } }.event Reg.calStat 0

/-- TEMP_SETS_SAVE: E4 writes the sets at most once every 600 s. -/
def execTempSetsSave (s : State) : Host.Outcome State Fault Refusal :=
  whenDue s (s.backsightUp && match s.time.saveAt with
      | some a => 600 * 10 ^ 12 * 2 ^ 24 ≤ (s.time.now - a) * s.period
      | none => true) s.saveSets

/-- Loads a saved V_meas into the place that `i` names in a slice; it takes effect at a gap crossing (04 R110). -/
def Slice.load (v : Slice) (i : Nat) (x : Int) (th : Option Int) : Slice :=
  match i with
  | 0 => { v with measOffs := x, theta := th }
  | 1 => { v with measGain := x, theta := th }
  | _ => { v with measSkew := x, theta := th }

/-- Loads one saved value of a channel (key below 512) or of a spare. -/
def State.loadValue (s : State) (key : Nat) (p : Nat × Int × Option Int) : State :=
  let (k, x, th) := p
  if key < 512 then
    if k < 6 then
      let n := sliceNo (key / 16) (2 * (key % 16) + k / 3)
      s.setSlice n ((s.slice n).load (k % 3) x th)
    else
      let ch := s.chan key
      let put (c : Const) : Const := { c with meas := x, theta := th }
      s.setChan key (if k = 6 then { ch with ratio8 := put ch.ratio8 } else { ch with ratio1 := put ch.ratio1 })
  else
    let st := key - 512
    if k < 3 then
      let n := sliceNo st 32
      s.setSlice n ((s.slice n).load k x th)
    else s.setStn st { s.stn st with skMeas := x }

/-- At start-up, the sets and their V_meas values are loaded from the settings area (04 R128); V_app at the present θ falls
due in the stations that hold any (04 R127). -/
def State.loadSets (s : State) : State :=
  s.fw.settings.sets.foldl (fun t (key, (v : CalSave)) =>
    let st := if key < 512 then key / 16 else key - 512
    let t := t.setStn st { t.stn st with interpDue := true }
    let t := if key < 512 then t.setChan key { t.chan key with sets := v.sets }
      else t.setStn st { t.stn st with spareSets := v.sets }
    v.meas.foldl (fun t p => t.loadValue key p) t) s

end Sys2Proof.Machine
end

