-- ==== Sys2Proof/Machine/FrontEnd.lean ====
section
/-!
DEFINITION. The front end (03): injection sources, the DC input test, the range decision, and the sample container with
the statistics that Backsight takes from it (03 R84 to R100, 04 R104 to R125, 05 R142, R143).
-/

namespace Sys2Proof.Machine

open Sys2Proof

/-! ### Injection sources (03 R91 to R97) -/

/-- A source as it stood before crossing `x` fired it: a second firing of the crossing prevails, and the source makes one
step (03 R96). R96 says so of a CALPULSE with an INJECT; for two INJECT stakes of one crossing it is the model's choice:
DESIGN CHOICE (notes/assumptions/99.md). -/
def InjSource.before (v : InjSource) (x : Nat) : InjSource :=
  match v.was with
  | some (a, out, onFrom, lastOn) => if a = x then { v with out := out, onFrom := onFrom, lastOn := lastOn } else v
  | none => v

/-- A source fires in crossing `x`: its output steps to the amplitude, and WIDTH counts from here (03 R93, R96). -/
def InjSource.fire (v : InjSource) (x : Nat) (amp : Int) (width delay : Nat) : InjSource :=
  let v := v.before x
  let on := v.out != 0
  let w : InjSource := { v with firedAt := x, width := width, delay := delay, was := some (x, v.out, v.onFrom, v.lastOn) }
  if amp = 0 then
    { w with
      out := 0, lastOn := if on && v.onFrom < x then some (if delay = 0 then x - 1 else x) else v.lastOn }
  else { w with out := amp, onFrom := if on then v.onFrom else x }

/-- The signed amplitude of FE_INJ_SET. -/
def injAmp (set_ : Word) : Int := if bit set_ 17 then -(bits set_ 15 0 : Int) else bits set_ 15 0

/-- Source `i` fires with its register settings. -/
def State.fireSource (s : State) (i : Nat) : State :=
  let w := s.reg (Reg.feInjSet i)
  s.setSrc i ((s.src i).fire s.time.xcount (injAmp w) (bits w 31 24) (s.fld (Reg.feInjTim i) 11 0))

/-- CALPULSE: every armed source fires when CALPULSE_EN = 1 (03 R94). -/
def execCalpulse (s : State) : Host.Outcome State Fault Refusal :=
  let t := s.fcDone fcCalpulse
  let t := { t with trig := { t.trig with calpulses := (t.time.xcount :: t.trig.calpulses).take 64 } }
  whenDue s (s.fcNext fcCalpulse)
    (if bit (s.reg Reg.feCtl) 0 then
      (upto 0 4).foldl (fun t i => if bit (t.reg (Reg.feInjSet i)) 16 then t.fireSource i else t) t
    else t)

/-- The settings of source `i` in an INJECT stake's arguments, written to its registers; ARM stays (03 R95, Table 3.6). -/
def State.injLoad (s : State) (args : List Byte) (i : Nat) : State :=
  let tim := le args (12 + 2 * i) 2
  let w := s.reg (Reg.feInjSet i)
  let w := putBits (putBits (putBits w 15 0 (le args (4 + 2 * i) 2)) 17 17 (tim / 2 ^ 15)) 31 24 (byteAt args (20 + i))
  (s.setReg (Reg.feInjSet i) w).setFld (Reg.feInjTim i) 11 0 tim

/-- INJECT: at its target the stake loads the settings of the named sources and fires them. -/
def execInject (s : State) : Host.Outcome State Fault Refusal :=
  match s.dueStake 0x03 with
  | some k =>
    let t := (upto 0 4).foldl (fun t i =>
      if Nat.testBit (byteAt k.args 0) i then (t.injLoad k.args i).fireSource i else t) s
    .next (t.ranStake k 0)
  | none => .next s

/-- INJECTION_RETURN: WIDTH crossings after it fired, a source returns to zero (03 R93, R97). -/
def execInjectionReturn (src : Nat) (s : State) : Host.Outcome State Fault Refusal :=
  let v := s.src src
  whenDue s (src < 4 && v.out != 0 && v.width != 0 && s.time.xcount == v.firedAt + v.width)
    (s.setSrc src { v with
      out := 0, lastOn := some (if v.delay = 0 then s.time.xcount - 1 else s.time.xcount) })

/-- The source that a channel is connected to (03 R92). -/
def injSel (fe : Word) : Option Nat :=
  let v := bits fe 10 8
  if 4 ≤ v then some (v - 4) else none

/-- A source's output is not zero at some instant of crossing `x`, the present one. -/
def InjSource.onAt (v : InjSource) (x : Nat) : Bool := v.out != 0 || v.lastOn == some x

/-- The present crossing is marked CAL on account of a source (03 R97). -/
def InjSource.marks (v : InjSource) (x tail : Nat) : Bool :=
  v.onAt x || match v.lastOn with
    | some b => b < x && x ≤ b + tail
    | none => false

/-! ### DC input test (03 R98 to R100) -/

/-- DC_TEST_START: crossing N−16: the test current flows in every enabled channel. A test that ran to crossing N−1 and whose
crossing 0 has not come by then is lost without a post: DESIGN CHOICE (notes/assumptions/98.md). -/
def execDcTestStart (s : State) : Host.Outcome State Fault Refusal :=
  let t := (s.chans.map Prod.fst).foldl (fun t c => t.setChan c { t.chan c with
    sumOn := 0, sumOff := 0, dcClip := false }) s
  whenDue s (s.time.sampling && s.time.cross + 16 == s.n && bit (s.reg Reg.feTestCtl) 0 &&
      s.time.testOnAt != some s.time.now)
    { t with
      time := { t.time with testOnAt := some t.time.now }
      dcTest := { t.dcTest with begun := true, current := true, startX := t.time.xcount } }

/-- DC_TEST_CURRENT_OFF: crossing N−8. -/
def execDcTestCurrentOff (s : State) : Host.Outcome State Fault Refusal :=
  whenDue s (s.time.cross + 8 == s.n && s.dcTest.begun && s.dcTest.current)
    { s with
      time := { s.time with testOffAt := some s.time.now }
      dcTest := { s.dcTest with current := false } }

/-- I_T in µA (03 Table 3.12). -/
def State.testCurrent (s : State) : Nat :=
  match s.fld Reg.feTestCtl 25 24 with
  | 0 => 10
  | 1 => 20
  | 2 => 50
  | _ => 100

/-- R_MEAS from the difference of the window sums in the direction of the current (03 R99). -/
def rMeasOf (d : Int) (current : Nat) : Nat :=
  (clampI 0 4095 (roundHalfOut (d * 2000000) (262144 * 12 * current))).toNat

/-- A source connected to the channel was on in crossings N−16 to N−1 of the test (03 Table 3.7). -/
def State.sourceInTest (s : State) (c : Nat) : Bool :=
  match injSel (s.fe c) with
  | some i =>
    let v := s.src i
    let a := s.dcTest.startX
    (v.out != 0 && v.onFrom < a + 16) || match v.lastOn with
      | some b => a ≤ b
      | none => false
  | none => false

/-- A trim of the channel's slices was applied in crossings N−16 to N−1 of the test (03 Table 3.7). -/
def State.trimInTest (s : State) (c : Nat) : Bool :=
  (s.chan c).trims.any fun x => s.dcTest.startX ≤ x && x < s.dcTest.startX + 16

/-- RESULT and R_MEAS of a channel for the test that ends (03 R99, Table 3.7). -/
def State.dcResult (s : State) (c : Nat) (cm : Bool) : Nat × Nat :=
  let ch := s.chan c
  let fe := s.fe c
  let d := if bits fe 3 2 = 2 then ch.sumOff - ch.sumOn else ch.sumOn - ch.sumOff
  let r := rMeasOf d s.testCurrent
  if !bit fe 0 then (6, 0)
  else if s.trimInTest c || s.sourceInTest c then (5, r)
  else if cm then (3, r)
  else if ch.dcClip then (4, r)
  else if s.fld Reg.feTestThr 27 16 < r then (1, r)
  else if r < s.fld Reg.feTestThr 11 0 then (2, r)
  else (0, r)

/-- RESULT and R_MEAS of a channel for a test that a change of Datum cut short: R_MEAS keeps its value (03 R99). FE_CH.EN is
taken as it stands at the post: DESIGN CHOICE (notes/assumptions/97.md). -/
def State.cutResult (s : State) (c : Nat) : Nat × Nat :=
  if bit (s.fe c) 0 then (5, (s.chan c).rMeas) else (6, 0)

/-- Posts RESULT and R_MEAS of a channel, and sets or clears its FAULT (03 R100). -/
def State.dcPostChan (s : State) (c : Nat) (p : Nat × Nat) : State :=
  let (res, r) := p
  let ch := s.chan c
  let bad := res = 1 ∨ res = 2 ∨ res = 3
  let fr := if bad then ch.faultRun + 1 else if res = 0 then 0 else ch.faultRun
  let cr := if res = 0 then ch.clearRun + 1 else if bad then 0 else ch.clearRun
  let set_ := !ch.fault && decide bad && s.fld1 Reg.feTestCtl 15 8 ≤ fr
  let clr := ch.fault && res == 0 && s.fld1 Reg.feTestCtl 23 16 ≤ cr
  let t := s.setChan c { ch with
    result := res, rMeas := r, faultRun := fr, clearRun := cr
    fault := (ch.fault || set_) && !clr }
  let t := if set_ then t.event Reg.feStat 3 else t
  if clr then t.event Reg.feStat 2 else t

/-- A post of one test: every channel's result together, and TEST_SEQ (03 R98, R99). -/
def State.dcPostAll (s : State) (res : Nat → Nat × Nat) : State :=
  let t := (upto 0 512).foldl (fun t c => t.dcPostChan c (res c)) s
  { t with dcTest := { t.dcTest with seq := (t.dcTest.seq + 1) % 65536 } }

/-- Posts the test that ran to crossing N−1. -/
def State.dcPostRun (s : State) (cm : List Nat) : State :=
  let t := s.dcPostAll fun c => s.dcResult c (memNat cm c)
  { t with dcTest := { t.dcTest with begun := false, current := false, held := none } }

/-- The last sample of a channel's off window lacks its converter, and the sample that replaces it is formed with the first
sample of crossing 0 (05 R143). -/
def State.dcAwaits (s : State) (c : Nat) : Bool :=
  s.chEn c && match (s.chan c).hist with
    | v :: _ => v.n == 4 * (s.dcTest.startX + 15) + 3 && v.range == 3 && v.en &&
        (s.slice (sliceNo (c / 16) (2 * (c % 16)))).lostFrom.isNone
    | [] => false

/-- The held results are posted, once no channel awaits the sample that replaces its last one. -/
def State.dcRelease (s : State) (now : Bool) : State :=
  match s.dcTest.held with
  | some cm => if now || !(s.chans.any fun (c, _) => s.dcAwaits c) then s.dcPostRun cm else s
  | none => s

/-- DC_TEST_POST at crossing 0: NOT_TESTED for each test cut short, then the results of the test that began in the orbit
just ended (03 R98, R99); they wait within crossing 0 for the samples that complete an off window (05 R143). `cm` lists the
channels of which a leg left its common-mode range. -/
def State.dcPost (s : State) (cm : List Nat) : State :=
  let t := (upto 0 s.dcTest.cuts).foldl (fun t _ => t.dcPostAll t.cutResult) s
  let t := { t with dcTest := { t.dcTest with cuts := 0 } }
  if t.dcTest.begun then State.dcRelease { t with dcTest := { t.dcTest with held := some cm } } false else t

/-! ### FE_CH (03 R82, R88, R97; 04 R121; 05 R155) -/

/-- The pedestals follow a change of OFFSET (04 R121). -/
def State.offsetChange (s : State) (c : Nat) (d : Int) : State :=
  if d = 0 then s
  else
    let ch := s.chan c
    let mv (s : State) (k : Const) : Const × State :=
      let (e, s) := s.limitPed (k.eff + 16 * d)
      let (m, s) := s.limitPed (k.meas + 16 * d)
      ({ k with eff := e, meas := m }, s)
    let (a, s) := mv s ch.ped64
    let (b, s) := mv s ch.ped8
    let (e, s) := mv s ch.ped1
    let s := s.setChan c { ch with
      ped64 := a, ped8 := b, ped1 := e
      evenSum := 0, evenCnt := 0, oddSum := 0, oddCnt := 0, pedFrom := s.time.orbitNo }
    let q := s.stn (c / 16)
    match q.job with
    | some j =>
      if j.step = .shadow (c % 16) then
        s.setStn (c / 16) { q with job := some { j with shadow := { j.shadow with p8 := 0, n8 := 0, p1 := 0, n1 := 0 } } }
      else s
    | none => s

/-- FE_CH_APPLY: a staged FE_CH value takes effect at the first gap crossing (03 R82). -/
def State.feApply (s : State) (c : Nat) : State :=
  match (s.chan c).feAt with
  | some a =>
    if a + 8 ≤ s.time.now then
      let old := s.fe c
      let new := s.reg (Reg.feCh c)
      let x := s.time.xcount
      let on (w : Word) : Bool := match injSel w with
        | some i => (s.src i).onAt x
        | none => false
      let conn := injSel old != injSel new && (on old || on new)
      let tail := s.fld Reg.feCtl 23 16
      let ch := s.chan c
      let t := s.setChan c { ch with
        feAt := none
        enLog := if bit old 0 != bit new 0 then ((x, bit new 0) :: ch.enLog).take 4096 else ch.enLog
        calFrom := if conn && ch.calThrough < x then x + 1 else ch.calFrom
        calThrough := if conn then max ch.calThrough (x + tail) else ch.calThrough
        started := ch.started && bit new 0 }
      let t := t.setEff (Reg.feCh c) new
      let t := t.offsetChange c ((bits new 23 12 : Int) - bits old 23 12)
      if !bit old 0 && bit new 0 then t.preloadNow c else t
    else s
  | none => s

/-- FE_STAT.STAGED (03 R82). -/
def State.feStaged (s : State) : Bool := s.chans.any fun (_, c) => c.feAt.isSome

/-! ### The range decision (03 R84 to R89) -/

/-- A look-ahead code within a window whose lower and upper limits apply as POL says (03 R80, R85). -/
def within (pol lo hi l : Nat) : Bool :=
  (pol == 1 || lo ≤ l) && (pol == 2 || l ≤ hi)

/-- Within the 90 % window. -/
def within90 (pol l : Nat) : Bool := within pol 409 3686 l

/-- Within the 80 % window. -/
def within80 (pol l : Nat) : Bool := within pol 819 3276 l

/-- HOLD as it acts (03 R87). -/
def State.hold (s : State) : Nat := min 64 (max 2 (s.fld Reg.feCtl 14 8))

/-- RANGE code of a gain (03 Table 3.1). -/
def Gain.code : Gain → Nat
  | .g64 => 0
  | .g8 => 1
  | .g1 => 2

/-- The gain that RANGE_MODE forces (03 R88). -/
def forcedGain (mode : Nat) : Option Gain :=
  match mode with
  | 1 => some .g64
  | 2 => some .g8
  | 3 => some .g1
  | _ => none

/-- The gain of the next sample: the highest eligible one on a step down, else the highest whose hold count is met, else
the gain in use (03 R86, R87). -/
def nextGainOf (use : Gain) (pol l64 l8 c64 c8 hold : Nat) : Gain :=
  let e64 := within90 pol l64
  let e8 := within90 pol l8
  match use with
  | .g64 => if e64 then .g64 else if e8 then .g8 else .g1
  | .g8 => if e8 then (if hold ≤ c64 then .g64 else .g8) else if e64 then .g64 else .g1
  | .g1 => if hold ≤ c64 then .g64 else if hold ≤ c8 then .g8 else .g1

/-- The factor between LSB_g and the high-gain LSB (03 Table 3.1). -/
def Gain.lsbs : Gain → Nat
  | .g64 => 1
  | .g8 => 8
  | .g1 => 64

/-- The code that the amplifier of a gain delivers for an input of `v` nV: OFFSET + round(v / LSB_g), limited to 0 to 4095,
with LSB_64 = 2.0 V / 2¹⁸ (03 R79, Table 3.1). -/
def ampCode (offset : Nat) (v : Int) (g : Gain) : Nat :=
  (clampI 0 4095 (offset + roundHalfOut (v * 262144) (2000000000 * g.lsbs))).toNat

/-- The output code of a converter that departs by `dev` codes from the code delivered to it. -/
def sliceCode (offset : Nat) (v : Int) (g : Gain) (dev : Int) : Nat :=
  (clampI 0 4095 ((ampCode offset v g : Int) + dev)).toNat

/-- OFFSET of an FE_CH value (03 Table 3.15). -/
def feOffset (fe : Word) : Nat := bits fe 23 12

/-! ### S0 (05 R142) -/

/-- m(n) of a container, and whether SAT_20 limited it. -/
def Channel.merge (c : Channel) (range code : Nat) : Int × Bool :=
  let q : Int := 16 * (code : Int)
  match range with
  | 0 => satW 20 (rnd (q - c.ped64.eff) 4)
  | 1 => satW 20 (rnd ((q - c.ped8.eff) * c.ratio8.eff) 20)
  | 2 => satW 20 (rnd ((q - c.ped1.eff) * c.ratio1.eff) 20)
  | _ => (0, false)

/-- The value that replaces the newest sample held when sample `v` comes: it lacks a converter and both its neighbours have
one (05 R143). -/
def filled (h : List Sample) (v : Sample) : Option Int :=
  match h with
  | a :: b :: _ =>
    if a.range = 3 && a.en && v.range != 3 && b.range != 3 && a.n + 1 == v.n && b.n + 1 == a.n then
      some (rnd (b.m + v.m) 1)
    else none
  | _ => none

/-- Puts a sample at the head of the samples held, with the sample before it replaced where it has to be (05 R143). -/
def pushSample (h : List Sample) (v : Sample) : List Sample :=
  match filled h v, h with
  | some m, a :: t => v :: { a with m := m } :: t
  | _, _ => v :: h

/-! ### Statistics taken from samples (04 R115 to R125) -/

/-- The present crossing is empty (04 R119). -/
def State.emptyNow (s : State) : Bool :=
  let x := s.time.cross
  (s.n + 4 ≤ x + s.g && x + 17 ≤ s.n) || bit (s.reg (Reg.calEmptyMap (x / 32))) (x % 32)

/-- The spare delivers for one of the channel's slices by a visit: from the hand-over to the hand-back, or to the crossing in
which a fault found meanwhile returns the slice to service (04 R120, R125, R133). -/
def State.visited (s : State) (c : Nat) : Bool :=
  let q := s.stn (c / 16)
  let held : Option Nat → Bool
    | some j => j / 2 == c % 16
    | none => false
  held q.handed || (s.time.xcount < q.spareFrom && held q.spareBefore)

/-- A sample of an empty crossing enters the pedestal sums (04 R119, R120). -/
def State.pedStat (s : State) (c k : Nat) (v : Sample) : State :=
  if s.emptyNow && !v.visited && v.range == 0 && !v.cal && !v.edge && !v.clipped then
    let ch := s.chan c
    s.setChan c (if k % 2 = 0 then { ch with evenSum := ch.evenSum + v.code, evenCnt := ch.evenCnt + 1 }
      else { ch with oddSum := ch.oddSum + v.code, oddCnt := ch.oddCnt + 1 })
  else s

/-- Three consecutive samples of one range, newest first. -/
def threeInRow : List Sample → Option (Sample × Sample × Sample)
  | v :: b :: a :: _ =>
    if b.n + 1 = v.n ∧ a.n + 1 = b.n ∧ v.range ≠ 3 ∧ v.range = b.range ∧ a.range = b.range then some (a, b, v) else none
  | _ => none

/-- The interleave skew statistic, taken when the sample after an odd one has come; a sample taken in a visit does not enter
it (04 R125). -/
def State.skewStat (s : State) (c k : Nat) : State :=
  if k % 2 = 0 then
    match threeInRow (s.chan c).hist with
    | some (a, b, v) =>
      let m : Int := (v.code : Int) - a.code
      if !a.visited && !b.visited && !v.visited && !a.edge && !b.edge && !v.edge && !a.clipped && !b.clipped && !v.clipped &&
          256 ≤ m.natAbs then
        let ch := s.chan c
        let r2 : Int := 2 * (b.code : Int) - a.code - v.code
        s.setChan c { ch with skRes := ch.skRes + r2 * m, skSq := ch.skSq + m * m, skCnt := ch.skCnt + 1 }
      else s
    | none => s
  else s

/-- The spare's skew statistic over the last sample of a parallel run (04 R117). -/
def State.spareSkewStat (s : State) (c : Nat) : State :=
  let q := s.stn (c / 16)
  match q.parLast, threeInRow (s.chan c).hist with
  | some (c0, n, d), some (a, b, v) =>
    if c0 = c ∧ b.n = n ∧ !a.edge ∧ !v.edge then
      let m : Int := (v.code : Int) - a.code
      s.setStn (c / 16) { q with skDm := q.skDm + d * m, skMm := q.skMm + m * m, skCnt := q.skCnt + 1, parLast := none }
    else s
  | _, _ => s

/-- A parallel run is in progress for the visit `b` (04 R114): crossings N−G−32 to N−G−1 of its last orbit. -/
def State.parallel (s : State) (b : CalJob) : Bool :=
  b.left == 1 && (b.phase == .lead || b.phase == .exitWait) &&
    s.n ≤ s.time.cross + s.g + 32 && s.time.cross + s.g < s.n

/-- A sample of a parallel run: `other` is the code of the converter whose containers do not stand (04 R114, R115). -/
def State.parStat (s : State) (c j : Nat) (v : Sample) (other : Nat) : State :=
  let st := c / 16
  let q := s.stn st
  match q.job with
  | some b =>
    if b.step = .visit j ∧ s.parallel b then
      let d : Int := if b.phase = .lead then (v.code : Int) - other else (other : Int) - v.code
      let p := b.par
      s.setStn st { q with
        job := some { b with par := ⟨p.sumD + d, max p.maxD d.natAbs, p.cnt + 1⟩ }
        parLast := some (c, v.n, d) }
    else s
  | none => s

/-- A code that is not clipped. -/
def unclipped (c : Nat) : Bool := c != 0 && c != 4095

/-- A pair's sums, when it is valid: `xc` is the lower-gain code with its pedestal, `yc` the higher-gain code with its
(04 R123). -/
def pairOk (s : State) (v : Sample) (pol xc yc : Nat) (ped : Int) : Bool :=
  unclipped xc && unclipped yc && !v.edge && within90 pol yc &&
    16 * s.fld Reg.calShadow 15 8 ≤ (16 * (xc : Int) - ped).natAbs

/-- A shadow conversion enters its statistics (04 R122, R123). -/
def State.shadowStat (s : State) (c k : Nat) (v : Sample) (la64 other : Nat) : State :=
  let st := c / 16
  let q := s.stn st
  match q.job with
  | some b =>
    if b.step = .shadow (c % 16) ∧ k % 2 = 0 then
      let w := b.shadow
      let ch := s.chan c
      let pol := bits (s.fe c) 3 2
      let put (w : ShadowSums) : State := s.setStn st { q with job := some { b with shadow := w } }
      let pair8 (xc yc : Nat) : State :=
        if pairOk s v pol xc yc ch.ped8.eff then
          let x : Int := 16 * (xc : Int) - ch.ped8.eff
          let y : Int := 16 * (yc : Int) - ch.ped64.eff
          put { w with xy8 := w.xy8 + x * y, xx8 := w.xx8 + x * x, k8 := w.k8 + 1 }
        else s
      let pair1 (xc yc : Nat) : State :=
        if pairOk s v pol xc yc ch.ped1.eff then
          let x : Int := 16 * (xc : Int) - ch.ped1.eff
          let y : Int := 16 * (yc : Int) - ch.ped8.eff
          put { w with xy1 := w.xy1 + x * y, xx1 := w.xx1 + x * x, k1 := w.k1 + 1 }
        else s
      if s.emptyNow then
        if v.cal || v.edge || !unclipped other then s
        else if k = 0 then put { w with p8 := w.p8 + other, n8 := w.n8 + 1 }
        else put { w with p1 := w.p1 + other, n1 := w.n1 + 1 }
      else
        match v.range with
        | 0 => pair8 other v.code
        | 1 => if within90 pol la64 then pair8 v.code other else pair1 other v.code
        | 2 => pair1 v.code other
        | _ => s
    else s
  | none => s

/-! ### The container (04 R104 to R107) -/

/-- How many samples of a channel the model keeps behind the newest. -/
def histDepth : Nat := 4800

/-- The converter that delivers the samples of slice `j` (04 R108, R114, R133). -/
def State.deliverer (s : State) (st j : Nat) : Nat :=
  let q := s.stn st
  let used := if q.spareFrom ≤ s.time.xcount then q.spareUsed else q.spareBefore
  if q.handed = some j ∨ used = some j then 32 else j

/-- The key of a container in PIPE (01 R20). -/
def pipeKey (x c k : Nat) : Nat := 2048 * (x % 4096) + 4 * c + k

/-- The gain that the spare converts in a shadow interval, at the instant of sample `k` taken in range `r` (04 R122). -/
def State.shadowGain (s : State) (k r pol la64 : Nat) : Gain :=
  if s.emptyNow then (if k = 0 then .g8 else .g1)
  else if r = 1 then (if within90 pol la64 then .g64 else .g1)
  else .g8

/-- The converter of a station that makes a conversion beside the one that delivers sample `k` of slice `j`: the other
converter of a parallel run, the visited slice in its offline phase, the spare of a shadow interval, or the spare in its
self-calibration, which converts at the instants of the first even slice (notes/assumptions/89.md). -/
def State.beside (s : State) (st j : Nat) : Option Nat :=
  match (s.stn st).job with
  | some b =>
    match b.step, b.phase with
    | .visit i, .lead => if i = j ∧ s.parallel b then some 32 else none
    | .visit i, .exitWait => if i = j ∧ s.parallel b then some j else none
    | .visit i, .offline => if i = j then some j else none
    | .shadow p, _ => if j = 2 * p then some 32 else none
    | .selfCal, .selfCalibrating => if j = 0 ∧ !b.offlineDone then some 32 else none
    | _, _ => none
  | none => none

/-- The self-check of the conversion made beside a sample (04 R104, R132). -/
def State.besideCheck (s : State) (c k : Nat) (err : Bool) : State :=
  match s.beside (c / 16) (2 * (c % 16) + k % 2) with
  | some j => s.converted (c / 16) j err
  | none => s

/-- Slice `j` has no converter in the present crossing (04 R135). -/
def State.lost (s : State) (st j : Nat) : Bool :=
  match (s.slice (sliceNo st j)).lostFrom with
  | some x => x ≤ s.time.xcount
  | none => false

/-- CAL of the present crossing for an enabled channel (03 R97, R98). -/
def State.calNow (s : State) (c : Nat) : Bool :=
  let x := s.time.xcount
  let ch := s.chan c
  let d := s.dcTest
  (match injSel (s.fe c) with
    | some i => (s.src i).marks x (s.fld Reg.feCtl 23 16)
    | none => false) ||
  (ch.calFrom ≤ x && x ≤ ch.calThrough && ch.calThrough != 0) ||
  (d.begun && d.startX ≤ x && x ≤ d.startX + 9)

/-- A container passes to S0, the detectors, PIPE and the statistics. -/
def State.intake (s : State) (c k : Nat) (v : Sample) (half : Bool) : State :=
  let ch := s.chan c
  let h := (pushSample ch.hist v).take histDepth
  let s1 := s.setChan c { ch with hist := h.drop 1 }
  let (env, sat) := s1.envStep c
  let good := match h.drop 1 with
    | u :: _ => if u.range = 3 then ch.goodEnv else some (u.n, env)
    | [] => none
  let s2 := s.setChan c ({ ch with hist := h, env := env, goodEnv := good }.detect v half)
  let s3 := { s2 with pipe := tabSet 0 s2.pipe (pipeKey s.time.xcount c k) v.cont }
  if v.sat || sat then s3.event (regKey Reg.stnStat (c / 16)) 2 else s3

/-- The sample of an enabled channel: range, code, EDGE, CAL, S0 (03 R79, R84 to R90, 04 R106, 05 R142). A channel with no
working converter also sets its window's HALF: DESIGN CHOICE (05 R161; notes/assumptions/105.md). The look-ahead of the last sample
before a gap crossing is formed and tested with the settings in effect at that sample: DESIGN CHOICE (03 R84;
notes/assumptions/116.md). -/
def State.takeSample (s : State) (c k n : Nat) (i : SampleIn) : State :=
  let st := c / 16
  let j := 2 * (c % 16) + k % 2
  let fe := s.fe c
  let pol := bits fe 3 2
  let mode := bits fe 5 4
  let ch := s.chan c
  let use := match forcedGain mode with
    | some g => g
    | none => if ch.started then ch.nextGain else .g1
  let code := sliceCode (feOffset fe) i.v use i.dev
  let la64 := ampCode (feOffset fe) i.la64 .g64
  let la8 := ampCode (feOffset fe) i.la8 .g8
  let sw := ch.started && use != ch.gain
  let edge := sw || (ch.started && ch.prevSwitch)
  let lost := s.lost st j
  let half := lost || s.lost st (if k % 2 = 0 then j + 1 else j - 1)
  let cal := s.calNow c
  let cont : Container := if lost then 0xC000
    else BitVec.ofNat 16 (use.code * 2 ^ 14 + (if edge then 2 ^ 13 else 0) + (if cal then 2 ^ 12 else 0) + code)
  let mg := if lost then (0, false) else ch.merge use.code code
  let v : Sample := {
    n := n, cont := cont, m := mg.1, sat := mg.2, en := true, forced := mode != 0
    stale := s.chStale c, fault := ch.fault, visited := s.visited c }
  let old64 := if ch.started then ch.c64 else 0
  let old8 := if ch.started then ch.c8 else 0
  let c64 := if within80 pol la64 then old64 + 1 else 0
  let c8 := if within80 pol la8 then old8 + 1 else 0
  let d := s.dcTest
  let x := s.time.xcount
  let on (x : Nat) : Bool := d.begun && d.startX + 2 ≤ x && x ≤ d.startX + 7
  let off (x : Nat) : Bool := d.begun && d.startX + 10 ≤ x && x ≤ d.startX + 15
  let onW := on x
  let offW := off x
  let prev := (filled ch.hist v).getD 0
  let ch1 := { ch with
    gain := use, prevSwitch := sw, started := true
    nextGain := nextGainOf use pol la64 la8 c64 c8 s.hold
    c64 := c64, c8 := c8, la64 := la64
    sumOn := ch.sumOn + (if onW then v.m else 0) + (if on ((n - 1) / 4) then prev else 0)
    sumOff := ch.sumOff + (if offW then v.m else 0) + (if off ((n - 1) / 4) then prev else 0)
    dcClip := ch.dcClip || ((onW || offW) && v.clipped) }
  let t := (s.setChan c ch1).intake c k v half
  let t := if v.clipped then (t.countFld Reg.feClipCount 31 0).event Reg.feStat 1 else t
  if lost then t
  else
    let t := t.converted st (s.deliverer st j) i.selfErr
    let t := ((t.pedStat c k v).skewStat c k).spareSkewStat c
    let beside (g : Gain) : Nat := sliceCode (feOffset fe) i.v g i.dev2
    (t.parStat c j v (beside use)).shadowStat c k v ch.la64 (beside (s.shadowGain k use.code pol ch.la64))

/-- The sample of a disabled channel: 0xC000, m(n) = 0 (03 R81, 04 R107, 05 R143). -/
def State.skipSample (s : State) (c k n : Nat) : State :=
  let ch := s.chan c
  let v : Sample := ⟨n, 0xC000, 0, false, false, bits (s.fe c) 5 4 != 0, s.chStale c, ch.fault, s.visited c⟩
  (s.setChan c { ch with started := false, prevSwitch := false, c64 := 0, c8 := 0 }).intake c k v false

/-- Sample `k` of channel `ch` in the present crossing, from the input of the channel and the departures and self-checks of
the converters (03 R79; notes/assumptions/89.md). What it forms carries the tag of this crossing and counts as formed two
crossings later (04 R105; notes/assumptions/17.md). -/
def execSampleContainer (ch k : Nat) (v la64 la8 dev : Int) (selfErr : Bool) (other : Int × Bool) (s : State) :
    Host.Outcome State Fault Refusal :=
  let i : SampleIn := ⟨v, la64, la8, dev, selfErr, other.1, other.2⟩
  let n := 4 * s.time.xcount + k
  let newer := match (s.chan ch).hist with
    | v :: _ => v.n < n
    | [] => true
  let gapDone := (s.time.cross + s.g != s.n || s.time.gapStartAt == some s.time.now) && !s.filterDue (ch / 16)
  let orbitDone := s.time.cross != 0 || s.time.orbitStartAt == some s.time.now
  let t := if s.chEn ch then s.takeSample ch k n i else s.skipSample ch k n
  whenDue s (ch < 512 && k < 4 && s.time.sampling && newer && gapDone && orbitDone)
    ((t.besideCheck ch k i.selfErr2).dcRelease false)

end Sys2Proof.Machine
end

