-- ==== Sys2Proof/Machine/History.lean ====
section
/-!
DEFINITION. The history store (07 R202 to R213, 08 R240 to R262): blocks, their index, their reading, the depth, and the
resolution of a Datum.
-/

namespace Sys2Proof.Machine

open Sys2Proof

/-! ### Forming and placing blocks -/

/-- Key of the block of a station for a block period. -/
def blockKey (period st : Nat) : Nat := 32 * period + st

/-- Row and position of an index entry (07 R207). -/
def indexKey (period st : Nat) : Nat := 32 * (period % 32768) + st

/-- Segments of the ring region (07 Table 7.1). -/
def ringSegs : Nat := 1966080

/-- Crossings of a station lost under a sag (01 R34, 07 R208). -/
def State.lostAt (s : State) (st x : Nat) : Bool :=
  s.hist.lost.any fun (j, f, n) => j == st && f ≤ x && x < f + n

/-- A container as PIPE holds it. -/
def State.pipeAt (s : State) (x c k : Nat) : Nat := (tabGet 0 s.pipe (pipeKey x c k)).toNat

/-- The containers of a position for crossings `x` to `x + n - 1`, from PIPE; 0xC000 where the history path lost them. -/
def State.pipeRun (s : State) (c x n : Nat) : List Nat :=
  (upto x n).flatMap fun y => (upto 0 4).map fun k => if s.lostAt (c / 16) y then 0xC000 else s.pipeAt y c k

/-- CMP_CTL and CMP_COPY_DIST for a block period: the last written 8 crossings or more before it begins (08 R258). -/
def State.cmpFor (s : State) (period : Nat) : Word × Word :=
  match s.hist.cmpSets.find? fun (w, _, _) => w + 8 ≤ s.nowOf (256 * period) with
  | some (_, c, d) => (c, d)
  | none => (regReset Reg.cmpCtl, regReset Reg.cmpCopyDist)

/-- Tokens placed from byte `p` on of the order of allocation, with the PADs of R255. -/
def placeTokens : Nat → List Token → List Byte
  | _, [] => []
  | p, t :: ts =>
    let room := 4096 - p % 4096
    let pad := if t.bytes.length ≤ room then 0 else room
    List.replicate pad 0 ++ t.bytes ++ placeTokens (p + pad + t.bytes.length) ts

/-- Streams placed one after another: their bytes. -/
def placeStreams : Nat → List (List Token) → List (List Byte)
  | _, [] => []
  | p, ts :: rest =>
    let b := placeTokens p ts
    b :: placeStreams (p + b.length) rest

/-- A block header with its CHECK field (08 Table 8.1). -/
def blockHeader (form st x flags offs len check : Nat) (slen : List Nat) : List Byte :=
  leBytes 2 0x6B1A ++ leBytes 1 form ++ leBytes 1 st ++ leBytes 6 x ++ leBytes 1 flags ++ leBytes 1 0 ++
    leBytes 2 offs ++ leBytes 2 0 ++ leBytes 4 len ++ leBytes 4 check ++ (slen.flatMap (leBytes 2)) ++ leBytes 8 0

/-- A block from its body: the tail, and CHECK over it (08 R241, R257); `bad` complements CHECK (14 Table 14.4). -/
def blockBytes (form st x flags offs : Nat) (slen : List Nat) (body : List Byte) (bad : Bool) : List Byte :=
  let len := 64 * ceilDiv (64 + body.length) 64
  let rest := body ++ List.replicate (len - 64 - body.length) 0
  let c := crc32c (blockHeader form st x flags offs len 0 slen ++ rest)
  blockHeader form st x flags offs len (if bad then ~~~c else c).toNat slen ++ rest

/-- The block of a station for a period with the containers `runs` of its positions, placed at byte `lin`; whether it is in the
stored form (08 R240 to R244, R256). -/
def State.codeBlock (s : State) (period st lin : Nat) (runs : List (List Nat)) (bad : Bool) : List Byte × Bool :=
  let x := 256 * period
  let (ctl, dist) := s.cmpFor period
  let toks := runs.map (encodeStream ctl dist)
  let total := (toks.map fun t => (tokenBytes t).length).foldl (· + ·) 0
  let loss := if (upto x 256).any (s.lostAt st) then 1 else 0
  if 31768 < total ∨ bit ctl 0 then
    (blockBytes 2 st x loss (lin % 4096) (List.replicate 16 0) (runs.flatMap fun r => r.flatMap (leBytes 2)) bad, true)
  else
    let bodies := placeStreams (lin + 64) toks
    (blockBytes 1 st x loss (lin % 4096) (bodies.map List.length) bodies.flatten false, false)

/-- The block of a station for a period as PIPE holds it. -/
def State.formBlock (s : State) (period st lin : Nat) (bad : Bool) : List Byte × Bool :=
  s.codeBlock period st lin ((upto 0 16).map fun k => s.pipeRun (16 * st + k) (256 * period) 256) bad

/-- The ring segment of byte `lin` has been allocated again (07 R209). -/
def State.overwritten (s : State) (lin : Nat) : Bool :=
  0 < s.hist.allocTotal && lin / 4096 + ringSegs ≤ (s.hist.allocTotal - 1) / 4096

/-- EVICTION: the blocks whose first segment has been allocated again leave the store (07 R206, R209). -/
def State.evict (s : State) : State :=
  { s with hist := { s.hist with blocks := s.hist.blocks.filter fun (_, b) => match b with
      | some v => !s.overwritten v.lin
      | none => false } }

/-- Writes the block of one station (07 R206). -/
def State.writeBlock (s : State) (period st : Nat) (ue : List WordAt) : State :=
  let lin := s.hist.allocTotal
  let (b, stored) := s.formBlock period st lin !ue.isEmpty
  let (ctl, _) := s.cmpFor period
  let loss := (upto (256 * period) 256).any (s.lostAt st)
  let s := if stored then ue.foldl (fun t w => t.sramUe { w with bank := st }) s else s
  let h := s.hist
  let t := { s with hist := { h with
    blocks := tabSet none h.blocks (blockKey period st) (some ⟨b, lin, loss, false⟩)
    allocTotal := lin + b.length
    toIndex := h.toIndex ++ [(period, st)]
    storedCount := if stored then satInc 0xFFFFFFFF h.storedCount else h.storedCount } }
  let t := t.evict
  if stored && !bit ctl 0 then t.event Reg.cmpStat 1 else t

/-- Writes the 32 blocks of the next block period. -/
def State.writePeriod (s : State) (ue : List WordAt) : State :=
  let k := s.hist.periods
  let a := s.hist.allocTotal
  let t := (upto 0 32).foldl (fun t st => t.writeBlock k st (ue.filter fun w => w.bank == st)) s
  { t with hist := { t.hist with
    periods := k + 1
    sizes := ((t.hist.allocTotal - a) :: t.hist.sizes).take 1024 } }

/-- BLOCK_WRITE: from crossing 256k + 257 on, the blocks of period k are written (07 R206). `ue` lists the words of PIPE,
by station, that a read for the stored form finds beyond correction. -/
def execBlockWrite (ue : List WordAt) (s : State) : Host.Outcome State Fault Refusal :=
  whenDue s (s.time.sampling && 256 * s.hist.periods + 257 ≤ s.time.xcount && s.time.blockAt != some s.time.now)
    { s.writePeriod ue with time := { s.time with blockAt := some s.time.now } }

/-! ### The index -/

/-- E1 serves: it runs and is not in a restart (01 R28). -/
def State.e1Up (s : State) : Bool := (s.engine 1).running && !(s.engine 1).restarting

/-- The index entry of a block, whatever its row holds. -/
def State.entryAt (s : State) (period st : Nat) : Option IndexEntry := tabGet none s.hist.index (indexKey period st)

/-- The index entry of the block itself: the block is indexed (07 R207). -/
def State.entryOf (s : State) (period st : Nat) : Option IndexEntry :=
  match s.entryAt period st with
  | some e => if e.xstart = 256 * period then some e else none
  | none => none

/-- E1 writes the entry of one block; the block of 32,768 periods before loses its row (07 R207, R209). -/
def State.writeEntry (s : State) (period st : Nat) : State :=
  let h := s.hist
  let e : IndexEntry := match tabGet none h.blocks (blockKey period st) with
    | some b => ⟨256 * period, b.loss, false, b.lin, b.bytes.length⟩
    | none => ⟨256 * period, false, false, 0, 64⟩
  { s with hist := { h with
    index := tabSet none h.index (indexKey period st) (some e)
    toIndex := h.toIndex.filter fun p => p != (period, st)
    blocks := if 32768 ≤ period then tabDel h.blocks (blockKey (period - 32768) st) else h.blocks } }

/-- INDEX_ENTRY_WRITE: E1 writes a queued entry (07 R207). -/
def execIndexEntryWrite (period station : Nat) (s : State) : Host.Outcome State Fault Refusal :=
  whenDue s (s.e1Up && s.hist.toIndex.any (· == (period, station))) (s.writeEntry period station)

/-- A pin holds or will hold the block; PINNED shows from the acceptance of the pin on: DESIGN CHOICE (07 Table 7.2;
notes/assumptions/113.md). -/
def State.blockPinned (s : State) (period st : Nat) : Bool :=
  s.hist.pins.any fun p => p.held.any (· == (period, st)) || p.todo.any (· == (period, st))

/-- An index entry as stored (07 Table 7.2). -/
def State.entryBytes (s : State) (period st : Nat) (e : IndexEntry) : List Byte :=
  let gone := (tabGet none s.hist.blocks (blockKey period st)).isNone
  let fl := 1 + (if e.loss then 2 else 0) + (if e.error then 4 else 0) +
    (if s.blockPinned period st then 8 else 0) + (if gone then 16 else 0)
  leBytes 6 e.xstart ++ leBytes 1 st ++ leBytes 1 fl ++ leBytes 4 (e.lin / 4096 % ringSegs) ++
    leBytes 2 (e.lin % 4096) ++ leBytes 2 e.len

/-- Where a block can be read. -/
inductive BlockAt where
  | future
  | gone
  | ring (e : IndexEntry) (b : Block)
  | pinned (e : Option IndexEntry) (b : Block)
  deriving DecidableEq, Repr

/-- Where the block of a station for a period stands: in the ring region while it is there, else under a pin (07 R209,
R228, R229). -/
def State.blockAt (s : State) (period st : Nat) : BlockAt :=
  let pin (e : Option IndexEntry) : BlockAt := match tabGet none s.hist.pinBlocks (blockKey period st) with
    | some b => .pinned e b
    | none => .gone
  match s.entryAt period st with
  | some e =>
    if e.xstart = 256 * period then
      match tabGet none s.hist.blocks (blockKey period st) with
      | some b => .ring e b
      | none => pin (some e)
    else if 256 * period < e.xstart then pin none
    else .future
  | none => .future

/-! ### Depth (07 R210) -/

/-- The oldest period whose 32 blocks are all in the ring region; the next to be written with none. -/
def State.oldestPeriod (s : State) : Nat :=
  match s.hist.blocks with
  | (k, _) :: _ => if k % 32 = 0 then k / 32 else k / 32 + 1
  | [] => s.hist.periods

/-- HIS_OLDEST, HIS_DEPTH (07 Table 7.9). -/
def State.oldestX (s : State) : Nat := 256 * s.oldestPeriod
def State.depth (s : State) : Nat := min 8388608 (256 * (s.hist.periods - s.oldestPeriod))

/-- HIS_NEWEST: the last crossing of the newest period whose 32 blocks are all indexed; 0 with none. -/
def State.newestX (s : State) : Nat :=
  match ((upto 0 s.hist.periods).reverse.take (s.hist.toIndex.length + 1)).find? fun k => !s.hist.toIndex.any fun p => p.1 == k with
  | some k => 256 * k + 255
  | none => 0

/-- HIS_RATIO: the mean compression of the last 1024 periods, Q8.8; its reset value before the first. -/
def State.histRatio (s : State) : Nat :=
  let total := s.hist.sizes.foldl (· + ·) 0
  if total = 0 then 0x100 else min 0xFFFF (s.hist.sizes.length * 1048576 * 256 / total)

/-! ### Reading blocks (08 R259 to R261) -/

/-- SLEN of a position. -/
def slenAt (b : List Byte) (k : Nat) : Nat := le b (24 + 2 * k) 2

/-- Step 1 of R259: the header against Table 8.1 and the entry's place. -/
def headerOk (b : List Byte) (period st offs len : Nat) : Bool :=
  let form := byteAt b 2
  let sum := ((upto 0 16).map (slenAt b)).foldl (· + ·) 0
  b.length == len && le b 0 2 == 0x6B1A && (form == 1 || form == 2) && byteAt b 3 == st && le b 4 6 == 256 * period % 2 ^ 48 &&
    byteAt b 10 < 2 && byteAt b 11 == 0 && le b 12 2 == offs && le b 14 2 == 0 && le b 16 4 == len &&
    allZero (bytesAt b 56 8) &&
    (if form = 1 then len == 64 * ceilDiv (64 + sum) 64 else len == 32832 && sum == 0)

/-- Step 2: CHECK. -/
def checkOk (b : List Byte) : Bool :=
  le b 20 4 == (crc32c (b.take 20 ++ List.replicate 4 0 ++ b.drop 24)).toNat

/-- Offset of a position's stream or containers in the block. -/
def streamAt (b : List Byte) (k : Nat) : Nat :=
  if byteAt b 2 = 1 then 64 + ((upto 0 k).map (slenAt b)).foldl (· + ·) 0 else 64 + 2048 * k

/-- The 1024 containers of a position, or the error and the block offset of its token (steps 3 of R259; R243). -/
def decodePos (b : List Byte) (offs k : Nat) : Except (CodeErr × Nat) (List Nat) :=
  let a := streamAt b k
  if byteAt b 2 = 1 then
    match decodeStream true (offs + a) (bytesAt b a (slenAt b k)) 1024 with
    | .ok xs => .ok xs
    | .error (e, p) => .error (e, p - offs)
  else .ok ((upto 0 1024).map fun i => le b (a + 2 * i) 2)

/-- A block already written in which the history path could not take some crossings is closed with 0xC000 for their containers and
with LOSS; one that does not decode keeps its bytes (01 R34, 07 R208; notes/assumptions/62.md). -/
def State.closeLoss (s : State) (period st : Nat) (b : Block) : Block :=
  let offs := b.lin % 4096
  let run (k : Nat) : Option (List Nat) := match decodePos b.bytes offs k with
    | .ok xs => some ((xs.zip (upto 0 1024)).map fun (v, i) => if s.lostAt st (256 * period + i / 4) then 0xC000 else v)
    | .error _ => none
  match (upto 0 16).mapM run with
  | some runs => { b with loss := true, bytes := (s.codeBlock period st b.lin runs (!checkOk b.bytes)).1 }
  | none => { b with loss := true }

/-- Blocks and entries already written that hold crossings lost under a sag show the loss (01 R34, 07 R208). -/
def State.markLoss (s : State) (st firstX count : Nat) : State :=
  let hit (x : Nat) : Bool := firstX < x + 256 && x < firstX + count
  let mark (t : Tab (Option Block)) : Tab (Option Block) := t.map fun (k, b) =>
    (k, if k % 32 == st && hit (256 * (k / 32)) then b.map (s.closeLoss (k / 32) st) else b)
  let h := s.hist
  let blocks := mark h.blocks
  let entry (e : IndexEntry) : IndexEntry :=
    if hit e.xstart then
      match tabGet none blocks (blockKey (e.xstart / 256) st) with
      | some b => { e with loss := true, len := if e.lin = b.lin then b.bytes.length else e.len }
      | none => { e with loss := true }
    else e
  { s with hist := { h with
    blocks := blocks
    pinBlocks := mark h.pinBlocks
    index := h.index.map fun (k, e) => (k, if k % 32 == st then e.map entry else e) } }

/-- What a reader finds first wrong with a block: the kind, the position of the stream, the block offset of the token. -/
structure BlockErr where
  kind : CodeErr
  pos : Option Nat
  offs : Nat
  deriving DecidableEq, Repr

/-- Checks a block in the order of R259; `poss` are the positions whose streams are needed. -/
def checkBlock (b : List Byte) (period st offs len : Nat) (poss : List Nat) : Option BlockErr :=
  if !headerOk b period st offs len then some ⟨.header, none, 0⟩
  else if !checkOk b then some ⟨.check, none, 0⟩
  else
    poss.findSome? fun k => match decodePos b offs k with
      | .ok _ => none
      | .error (e, p) => some ⟨e, some k, p⟩

/-- BLOCK_ERROR: the first time a block is found in error, ERROR is set in its entry, and it is recorded and counted; `err`
is none for an ECC error beyond correction, which has the same effect, is counted elsewhere and is recorded with KIND 000:
Table 8.3 has no kind for it (07 R209, 08 R261; notes/assumptions/91.md). -/
def State.noteBlockError (s : State) (period st : Nat) (err : Option BlockErr) : State :=
  let copy := tabGet none s.hist.pinBlocks (blockKey period st)
  let seen := match s.entryOf period st, copy with
    | some e, _ => e.error
    | none, some b => b.error
    | none, none => false
  if seen then s
  else
    let h := { s.hist with pinBlocks := match copy with
      | some b => tabSet none s.hist.pinBlocks (blockKey period st) (some { b with error := true })
      | none => s.hist.pinBlocks }
    let ix := match s.entryOf period st with
      | some e => tabSet none h.index (indexKey period st) (some { e with error := true })
      | none => h.index
    let s1 := ({ s with hist := { h with index := ix, errCount := satInc 0xFFFFFFFF h.errCount } }).event Reg.hisStat 4
    let h := { s1.hist with errX := 256 * period }
    let h := match err with
      | none => { h with errInfo := place st 4 }
      | some e =>
        let info := place e.offs 16 ||| bitAt 13 e.pos.isSome ||| place (e.pos.getD 0) 9 ||| place st 4 ||| place e.kind.kind 0
        let h := { h with errInfo := info }
        match e.kind with
        | .header => { h with errHeader := satInc 0xFF h.errHeader }
        | .check => { h with checkCount := satInc 0xFFFFFFFF h.checkCount }
        | .illegal => { h with errIllegal := satInc 0xFF h.errIllegal }
        | .distance => { h with errDistance := satInc 0xFF h.errDistance }
        | .length => { h with errLength := satInc 0xFF h.errLength }
    ({ s1 with hist := h }).event Reg.cmpStat 0

/-- The index entry before the one of a station in packing order (14 R409). -/
def State.entryBefore (s : State) (period st : Nat) : Option IndexEntry :=
  if st = 0 then (if period = 0 then none else s.entryOf (period - 1) 31) else s.entryOf period (st - 1)

/-- The entry that the header of a block in the ring region gives, when the block begins at byte `lin` and its MARK, STATION and
XSTART agree (14 R409; 08 Table 8.1). The header holds no ERROR, and the entry gets 0: DESIGN CHOICE (notes/assumptions/113.md). -/
def State.headerEntry (s : State) (period st lin : Nat) : Option IndexEntry :=
  match tabGet none s.hist.blocks (blockKey period st) with
  | some b =>
    if b.lin = lin ∧ le b.bytes 0 2 = 0x6B1A ∧ byteAt b.bytes 3 = st ∧ le b.bytes 4 6 = 256 * period % 2 ^ 48 then
      some ⟨256 * period, byteAt b.bytes 10 % 2 == 1, false, lin, le b.bytes 16 4⟩
    else none
  | none => none

/-- An index entry of a row that cannot be read is rebuilt from the entry before it and from the header of its block; failing
that it is written with VALID = 1 and ERROR = 1. Where its block begins is then not known: SEG, OFFS and LEN are free
(14 R409; notes/assumptions/108.md). -/
def State.rebuildEntry (s : State) (row st : Nat) (prevLost headerLost : Bool) : State :=
  match tabGet none s.hist.index (32 * (row % 32768) + st) with
  | none => s
  | some e =>
    let period := e.xstart / 256
    let put (t : State) (v : IndexEntry) : State :=
      { t with hist := { t.hist with index := tabSet none t.hist.index (indexKey period st) (some v) } }
    let prev := if prevLost then none else s.entryBefore period st
    match prev.bind fun p => if headerLost then none else s.headerEntry period st (64 * ceilDiv (p.lin + p.len) 64) with
    | some v => put s v
    | none =>
      let t := s.noteBlockError period st none
      let (a, t) := t.free
      let (b, t) := t.free
      put t { e with loss := false, error := true, lin := a, len := b % 32833 }

/-- What a read of the index for a block finds: an entry beyond correction is logged, counted and rebuilt (14 R401, R409). -/
def State.indexRead (s : State) (period st : Nat) (l : Option EntryLoss) : State :=
  match l with
  | some l => (s.dramRead .uncorrectable l.row).rebuildEntry period st l.prevLost l.headerLost
  | none => s

/-- What a read of a block yields. -/
structure BlockRead where
  /-- The block's bytes and its offset in its segment; none when it is absent. -/
  got : Option (List Byte × Nat)
  error : Bool
  loss : Bool
  pinned : Bool
  deriving DecidableEq, Repr

/-- Reads the block of a station for a period from where it stands, checking the streams of `poss`, with what the stack's own
check finds (07 R226, R229; 08 R259; 14 Table 14.4). -/
def State.readAt (s : State) (at_ : BlockAt) (period st : Nat) (poss : List Nat) (ecc : EccResult) (row : Nat) :
    BlockRead × State :=
  let go (b : Block) (known : Option IndexEntry) (pinned : Bool) : BlockRead × State :=
    let s := s.dramRead ecc row
    let offs := b.lin % 4096
    let bad := b.error || match known with | some e => e.error | none => false
    let (eOffs, eLen) := match known with
      | some e => (e.lin % 4096, e.len)
      | none => (offs, b.bytes.length)
    let err := if ecc = .uncorrectable then none else checkBlock b.bytes period st eOffs eLen poss
    let isErr := ecc == .uncorrectable || err.isSome
    let s := if isErr then s.noteBlockError period st err else s
    (⟨some (b.bytes, offs), bad || isErr, b.loss, pinned⟩, s)
  match at_ with
  | .ring e b => go b (some e) false
  | .pinned e b => go b e true
  | _ => (⟨none, false, false, false⟩, s)

/-- Reads the block of a station for a period. -/
def State.readBlock (s : State) (period st : Nat) (poss : List Nat) (ecc : EccResult) (row : Nat) : BlockRead × State :=
  s.readAt (s.blockAt period st) period st poss ecc row

/-- The containers of a position of a block that has been read, for crossings `a` to `a + n - 1` of its period: 0xC000 when it
is absent or in error (07 R226). -/
def BlockRead.containers (r : BlockRead) (k a n : Nat) : List Nat :=
  match r.got with
  | some (b, offs) =>
    if r.error then List.replicate (4 * n) 0xC000
    else
      match decodePos b offs k with
      | .ok xs => (xs.drop (4 * a)).take (4 * n)
      | .error _ => List.replicate (4 * n) 0xC000
  | none => List.replicate (4 * n) 0xC000

/-! ### The scrub's debt (07 R237) -/

/-- Bytes of the retained region (07 Table 7.1). -/
def retainedBytes : Nat := 512 * 2 ^ 20

/-- HIS_SCRUB_PERIOD as it acts, in crossings (07 R237). -/
def State.scrubPeriod (s : State) : Nat := s.seconds (min 3600 (s.fld1 Reg.hisScrubPeriod 11 0))

/-- The scrub's debt: what it should have read by now, on a linear schedule, minus what it has read (07 R237). -/
def State.scrubOwed (s : State) : Nat :=
  let p := s.scrubPeriod
  let due := if p = 0 then 0 else min retainedBytes (retainedBytes * (s.time.now - s.hist.scrubStart) / p)
  due - s.hist.scrubBytes

/-- The scrub is in debt: from the time the debt exceeds its limit until it is 0 (07 R237). -/
def State.inDebt (s : State) : Bool :=
  (s.hist.scrubDebt && 0 < s.scrubOwed) || s.fld1 Reg.hisScrubDebtLim 8 0 * 2 ^ 20 < s.scrubOwed

/-- The debt is followed as time passes (07 R237). -/
def State.noteDebt (s : State) : State :=
  { s with hist := { s.hist with scrubDebt := s.past .stack && s.inDebt } }

/-- The scrub may read (07 R237, 15 Table 15.1). -/
def State.scrubUp (s : State) : Bool :=
  bit (s.reg Reg.hisCtl) 0 && s.past .stack && (s.engine 6).running && !(s.engine 6).restarting && s.hist.scrubBytes < retainedBytes

/-- A scrub in debt claims its slot of rank 2, one in 16 of the 128 slots of a crossing: it ranks ahead of fragment reads
and recalls until it has read the 512 bytes of every crossing (07 R236; notes/assumptions/92.md). -/
def State.scrubClaims (s : State) : Bool := s.scrubUp && s.inDebt && s.hist.scrubNext ≤ s.time.now

/-! ### Resolving a Datum (07 R213) -/

/-- The most recent crossing before `nx`, from the change `c` on, that carried the Datum. -/
def DatumChange.find (c : DatumChange) (nx orbit cross : Nat) : Option Nat :=
  let d : Int := sext 44 (orbit + 2 ^ 44 - c.orbit) * (c.len : Int) + ((cross : Int) - (c.cross : Int))
  if decide (0 ≤ d) && c.x + d.toNat < nx && datumAfter c d.toNat == (orbit, cross) then some (c.x + d.toNat) else none

/-- The most recent crossing before `nx` that carried the Datum and is admitted. -/
def findDatum (ok : Nat → Bool) (orbit cross : Nat) : List DatumChange → Nat → Option Nat
  | [], _ => none
  | c :: t, nx =>
    match c.find nx orbit cross with
    | some x => if ok x then some x else findDatum ok orbit cross t c.x
    | none => findDatum ok orbit cross t c.x

/-- E1's map: the last `n` changes of Datum (07 R213). -/
def datumMap : Nat → List DatumChange → List DatumChange
  | _, [] => []
  | 0, _ => []
  | n + 1, c :: t => c :: datumMap (if c.real then n else n + 1) t

/-- The running count that a Datum resolves to (07 R213); a crossing number beyond the orbit's end is carried by none, and a Datum of
recent crossings whose blocks are not written yet resolves: DESIGN CHOICE (notes/assumptions/113.md). -/
def State.resolveDatum (s : State) (orbit cross : Nat) : Option Nat :=
  let within (x : Nat) : Bool := s.oldestX ≤ x || s.hist.pins.any fun p => p.held.any fun q => q.1 == x / 256
  match findDatum within orbit cross (datumMap 1024 s.time.changes) (s.time.xcount + 1) with
  | some x => some x
  | none =>
    let d := s.distance orbit cross
    if decide (0 < d) && cross < s.n then some (s.time.xcount + d.toNat) else none

end Sys2Proof.Machine
end

