-- ==== Sys2Proof/Machine/Trigger.lean ====
section
/-!
DEFINITION. Hits, trigger primitives and triggered read-out (06): groups and the hit ring, the hit stream, primitive
frames, accepts and fragments, the state sequencer (Traverse), the waveform mask tests (Contour), the dead-time record.
-/

namespace Sys2Proof.Machine

open Sys2Proof

/-! ### Groups and hits (06 R164 to R177) -/

/-- The last label of the group that begins at running count `x` (06 R170). -/
def State.groupEnd (s : State) (x : Nat) : Nat :=
  let last (y : Nat) : Bool := (s.datumAt (y + 1)).2 % 32 == 0 || s.time.changes.any fun c => c.x == y + 1
  ((upto x 32).find? last).getD (x + 31)

/-- An output that is a candidate hit (06 R164). -/
def State.candidate (s : State) (c : Nat) (o : Output) : Bool :=
  let thr := bits (s.eff (Reg.hitCh c)) 15 0
  o.en && !o.suppressed && thr != 0 && decide ((4 * thr : Nat) ≤ o.e)

/-- E of a neighbouring label for PEAK_ONLY: 0 when suppressed or absent (06 R165). -/
def Channel.energyAt (c : Channel) (x : Int) : Int :=
  if x < 0 then 0
  else match c.outAt x.toNat with
    | some o => o.e
    | none => 0

/-- Output `x` of a channel is a hit (06 R164, R165). -/
def State.isHit (s : State) (c x : Nat) : Bool :=
  let ch := s.chan c
  match ch.outAt x with
  | some o =>
    s.candidate c o && (!bit (s.eff Reg.hitCtl) 1 ||
      (decide (ch.energyAt ((x : Int) - 1) ≤ o.e) && decide (ch.energyAt ((x : Int) + 1) < o.e)))
  | none => false

/-- Position `k` of the station is kept as a neighbour of the hits `hits` at label `x` (06 R166). -/
def State.isNeighbour (s : State) (st k x : Nat) (hits : List Nat) : Bool :=
  let c := 16 * st + k
  bit (s.eff Reg.hitCtl) 2 && !memNat hits c &&
    (hits.any fun h => h / 16 == st && bit (s.eff (Reg.hitCh h)) (16 + k)) &&
    match (s.chan c).outAt x with
    | some o => o.en && !o.suppressed && decide (sext 20 (s.eff Reg.hitNthr).toNat ≤ o.e)
    | none => false

/-- A hit record (06 Table 6.1). -/
def hitRecord (c xoff : Nat) (e t : Int) (maxRange flags : Nat) : BitVec 64 :=
  BitVec.ofNat 64 (c * 2 ^ 55 + xoff * 2 ^ 50 + toTwos 20 e * 2 ^ 30 + toTwos 16 t * 2 ^ 14 + maxRange * 2 ^ 11 + flags)

/-- The record of an output (06 R167, Table 6.2). -/
def outRecord (c xoff : Nat) (o : Output) (pileup neigh : Bool) : BitVec 64 :=
  hitRecord c xoff o.e o.t o.maxRange.toNat
    ((o.flags.toNat % 512) + (if pileup && !Nat.testBit o.flags.toNat 2 then 4 else 0) + (if neigh then 512 else 0))

/-- A hit at `x` carries PILEUP (06 R167). -/
def Channel.pileup (c : Channel) (x n3 : Nat) : Bool := c.hitLabels.any fun y => y < x && x < y + n3

/-- The records of one label, in order of channel, and the state with the hits' labels noted. -/
def State.labelRecords (s : State) (first x : Nat) (en : List Nat) : List (BitVec 64) × List Nat × State :=
  let en := en.filter fun c => !s.sagAt (c / 16) x
  let hits := en.filter fun c => s.isHit c x
  let nbrs := (en.filter fun c => s.isNeighbour (c / 16) (c % 16) x hits)
  let rec_ (c : Nat) : List (BitVec 64) :=
    match (s.chan c).outAt x with
    | some o =>
      if memNat hits c then [outRecord c (x - first) o ((s.chan c).pileup x o.n3) false]
      else if memNat nbrs c then [outRecord c (x - first) o false true]
      else []
    | none => []
  let recs := en.flatMap rec_
  (recs, hits, hits.foldl (fun t c => t.setChan c { t.chan c with hitLabels := (x :: (t.chan c).hitLabels).take 32 }) s)

/-- The records of every label of a group in order, the hits (station, label), and the state after it. -/
def State.groupRecords (s : State) (first : Nat) (en : List Nat) :
    List Nat → List (BitVec 64) × List (Nat × Nat) × State
  | [] => ([], [], s)
  | x :: xs =>
    let (r, h, t) := s.labelRecords first x en
    let (r', h', u) := t.groupRecords first en xs
    (r ++ r', (h.map fun c => (c / 16, x)) ++ h', u)

/-- The SETTLE markers of the group that ends at `last` (06 R174; 05 R157). -/
def State.groupMarkers (s : State) (first last : Nat) : List (Nat × Settle) :=
  s.chans.flatMap fun (c, ch) =>
    (ch.settles.filter fun r => !r.placed && decide (r.first ≤ (last : Int)) && decide ((first : Int) ≤ r.last)).map
      fun r => (c, r)

/-- XOFF of a marker. -/
def markerOff (first : Nat) (r : Settle) : Nat := (r.first - first).toNat

/-- A marker's record. -/
def markerRecord (first : Nat) (p : Nat × Settle) : BitVec 64 :=
  hitRecord p.1 (markerOff first p.2) (p.2.last - max p.2.first 0 + 1) 0 0 8

/-- A marker is placed: the station records it (05 R157, Table 5.3). -/
def State.noteMarker (s : State) (p : Nat × Settle) : State :=
  let (c, r) := p
  let st := c / 16
  let q := s.stn st
  let t := s.setStn st { q with
    settleCount := satInc 0xFFFF q.settleCount
    settleInfo := (c % 16, (r.last - max r.first 0 + 1).toNat % 65536)
    settleFirst := (r.orbit, r.cross) }
  let ch := t.chan c
  (t.setChan c { ch with settles := ch.settles.map fun q => if q == r then { q with placed := true } else q }).event
    (regKey Reg.stnStat st) 1

/-- Puts a record among records ordered by XOFF and CHANNEL (06 R172). -/
def insRecord (v : BitVec 64) : List (BitVec 64) → List (BitVec 64)
  | [] => [v]
  | h :: t =>
    let key (w : BitVec 64) : Nat := (w.toNat / 2 ^ 50 % 32) * 512 + w.toNat / 2 ^ 55
    if key v < key h then v :: h :: t else h :: insRecord v t

/-- A group header (06 Table 6.3). -/
def groupHeader (cont holdover : Bool) (count gseq datum : Nat) : List Byte :=
  leBytes 2 0x9E5B ++ leBytes 1 ((if cont then 1 else 0) + (if holdover then 2 else 0)) ++ leBytes 1 0 ++
    leBytes 2 count ++ leBytes 2 gseq ++ leBytes 8 datum

/-- Places a group's header and records through consecutive class-1 packets (06 R172). -/
def State.placeGroup (s : State) (hdr : Bool → Nat → List Byte) (recs : List (BitVec 64)) (cont : Bool) : Nat → State
  | 0 => s
  | fuel + 1 =>
    let need := if recs.isEmpty then 16 else 24
    let room := s.openRoom 1
    if room < need then (s.closePacket 1 false).placeGroup hdr recs cont fuel
    else
      let n := min recs.length ((room - 16) / 8)
      let t := s.appendOpen 1 (hdr cont n ++ (recs.take n).flatMap fun v => leBytes 8 v.toNat) (!cont) false
      if recs.length ≤ n then t else t.placeGroup hdr (recs.drop n) true fuel

/-- The GAP record of a run of discarded groups behind the header of its first group (06 R175). -/
def HitRun.bytes (r : HitRun) : List Byte :=
  r.header.take 4 ++ leBytes 2 1 ++ r.header.drop 6 ++ leBytes 8 (r.len * 2 ^ 30 + 2 ^ 27 + 1024)

/-- Places the GAP records of the runs ahead of a group that is carried (06 R175). -/
def State.placeHitRuns (s : State) : State :=
  let t := { s with spool := { s.spool with hitRuns := [] } }
  s.spool.hitRuns.foldl (fun t r => t.placeRecord 1 r.bytes true false) t

/-- Crossings that the hit stream does not carry are counted (06 R176). -/
def State.countHitGap (s : State) (len : Nat) : State :=
  let t := s.addFld Reg.hitStat 31 16 len
  { t with trig := { t.trig with dt := { t.trig.dt with hitGapX := (t.trig.dt.hitGapX + len) % 2 ^ 64 } } }

/-- A group that is not carried joins the open run, which groups formed with STREAM_EN = 0 do not end, or begins a new one; a
group that is carried closes the runs (01 R22, 06 R173, R175). -/
def State.addHitRun (s : State) (header : List Byte) (len : Nat) : State :=
  let runs := s.spool.hitRuns
  let one : HitRun := ⟨header, len⟩
  let runs := match runs.getLast? with
    | some r =>
      if r.len + len ≤ 1048575 then runs.dropLast ++ [{ r with len := r.len + len }]
      else runs ++ [one]
    | none => [one]
  { s.countHitGap len with spool := { (s.countHitGap len).spool with hitRuns := runs } }

/-- A group that the share cannot take is discarded, which sets GAP_EVT (06 R175, R176). -/
def State.discardGroup (s : State) (header : List Byte) (len : Nat) : State :=
  ((s.gapFull 1).event Reg.hitStat 1).addHitRun header len

/-- Drops the oldest records beyond 786,432, and groups without records that no fragment can ask for (06 R177). -/
def trimRing : Nat → List HitGroup → Nat → List HitGroup × Option Nat
  | _, [], _ => ([], none)
  | room, g :: t, keep =>
    if g.recs.length ≤ room then
      let (u, l) := trimRing (room - g.recs.length) t keep
      (if g.recs.isEmpty && g.lastX < keep then u else g :: u, l)
    else
      let lost := g.recs.take (g.recs.length - room)
      let x := match lost.getLast? with
        | some v => g.firstX + v.toNat / 2 ^ 50 % 32
        | none => g.lastX
      (if room = 0 then [] else [{ g with recs := g.recs.drop (g.recs.length - room) }], some (x + 1))

/-- Writes a group to the hit ring. -/
def State.ringGroup (s : State) (g : HitGroup) : State :=
  let (r, l) := trimRing 786432 (g :: s.trig.hitRing) (s.time.xcount - 8192)
  { s with trig := { s.trig with hitRing := r, ringFrom := max s.trig.ringFrom (l.getD 0) } }

/-- HIT_CTL, HIT_NTHR and HIT_CHc written 8 crossings or more before the group begins are in effect (06 R168). -/
def State.applyHitStage (s : State) (first : Nat) : State :=
  let at_ := s.nowOf first
  let old := s.trig.hitStage.filter fun (_, _, w) => w + 8 ≤ at_
  let t := old.foldl (fun t (a, v, _) => t.setEff a v) s
  { t with trig := { t.trig with hitStage := s.trig.hitStage.filter fun (_, _, w) => !(decide (w + 8 ≤ at_)) } }

/-- The first label of the group that holds running count `x` (06 R170). -/
def State.groupStart (s : State) (x : Nat) : Nat :=
  let first (y : Nat) : Bool := (s.datumAt y).2 % 32 == 0 || s.time.changes.any fun c => c.x == y
  x - ((upto 0 (min 32 (x + 1))).find? fun i => first (x - i)).getD 0

/-- STREAM_EN in effect in the present crossing: as the group in progress has it (06 R168, R173, Table 6.15). -/
def State.streaming (s : State) : Bool :=
  let at_ := s.nowOf (s.groupStart s.time.xcount)
  let old := s.trig.hitStage.filter fun (a, _, w) => a == Reg.hitCtl && w + 8 ≤ at_
  s.time.sampling && bit (old.foldl (fun _ (_, v, _) => v) (s.eff Reg.hitCtl)) 0

/-- The runs of consecutive numbers of a rising list: first and length. -/
def runsOf : List Nat → List (Nat × Nat)
  | [] => []
  | x :: t => match runsOf t with
    | (y, n) :: r => if x + 1 = y then (x, n + 1) :: r else (x, 1) :: (y, n) :: r
    | [] => [(x, 1)]

/-- The GAP record of a run of crossings that some station could not take: behind a header with the group's GSEQ and the Datum
of the first of them, their count (01 R22, R34; notes/assumptions/62.md). -/
def State.sagRecord (s : State) (hdr : Nat → List Byte) (run : Nat × Nat) : List Byte :=
  let d := s.datumAt run.1
  HitRun.bytes ⟨hdr (datumWord d.1 d.2), run.2⟩

/-- Ahead of a group that is carried without the hits of a station which could not take some of its crossings, a GAP record
names each run of them (01 R22, R34). -/
def State.placeSagRun (s : State) (hdr : Nat → List Byte) (lost : List Nat) : State :=
  (runsOf lost).foldl (fun t run => t.placeRecord 1 (s.sagRecord hdr run) true false) (s.countHitGap lost.length)

/-- Carries the group in class 1, or discards it (06 R172, R175); `lost` are the crossings of it that some station could not
take. -/
def State.streamGroup (s : State) (hdr : Bool → Nat → Nat → List Byte) (datum : Nat) (recs : List (BitVec 64))
    (len : Nat) (lost : List Nat) : State :=
  match s.tryShare 1 64 fun t =>
      (t.placeHitRuns.placeSagRun (hdr false 0) lost).placeGroup (fun c n => hdr c n datum) recs false (recs.length + 3) with
  | some t => t
  | none => s.discardGroup (hdr false 0 datum) len

/-- GROUP_FORMED: the group in progress is formed. Of several markers of a station in one group, the one of the highest channel
counts as the most recent: DESIGN CHOICE (05 R157; notes/assumptions/103.md). -/
def State.formGroup (s : State) : State :=
  let first := s.trig.groupX
  let last := s.groupEnd first
  let d := s.datumAt first
  let s := s.applyHitStage first
  let en := (s.chans.filter fun (_, ch) => ch.outs.any fun o => o.en && first ≤ o.x && o.x ≤ last).map Prod.fst
  let (recs, hits, s) := s.groupRecords first en (upto first (last + 1 - first))
  let marks := s.groupMarkers first last
  let s := marks.foldl (fun t p => t.noteMarker p) s
  let all := marks.foldl (fun r p => insRecord (markerRecord first p) r) recs
  let gseq := s.trig.gseqNext
  let s := s.ringGroup ⟨gseq, d.1, d.2, first, last, recs⟩
  let nd := s.datumAt (last + 1)
  let s := { s with
    time := { s.time with groupAt := some s.time.now }
    trig := { s.trig with
      gseqLast := gseq, gseqNext := (gseq + 1) % 65536
      groupX := last + 1, groupOrbit := nd.1, groupCross := nd.2
      hitNow := (if s.time.groupAt = some s.time.now then s.trig.hitNow else []) ++ hits } }
  if bit (s.eff Reg.hitCtl) 0 then
    s.streamGroup (fun c n w => groupHeader c (s.quality / 64 == 2) n gseq w) (datumWord d.1 d.2) all
      (last + 1 - first) ((upto first (last + 1 - first)).filter fun x => (upto 0 32).any fun st => s.sagAt st x)
  else s

/-- Every output up to label `x` that is due has been delivered, but for a stretch (05 R151, 01 R33). -/
def State.outputsIn (s : State) (x : Nat) : Bool :=
  s.chans.all fun (c, ch) => !ch.hist.any Sample.en || match s.nextLabel c with
    | some y => x < y
    | none => true

/-- GROUP_FORMED: in crossing x_last + 18; the label after the last is delivered by then too, and PEAK_ONLY looks at it. -/
def execGroupFormed (s : State) : Host.Outcome State Fault Refusal :=
  let last := s.groupEnd s.trig.groupX
  whenDue s (s.time.sampling && last + 18 ≤ s.time.xcount && s.outputsIn (last + 1)) s.formGroup

/-! ### Trigger primitives (06 R178 to R181) -/

/-- PRIM_LAT as it acts. -/
def State.primLat (s : State) : Nat := max 8 (s.fld Reg.trgPrim 5 0)

/-- TW_EN names position `k` of a station. -/
def State.twEn (s : State) (st k : Nat) : Bool := bit (s.reg (Reg.trgTwCfg st)) (16 + k)

/-- The weight of a channel (06 R178). -/
def State.twWeight (s : State) (c : Nat) : Nat :=
  let w := s.reg (Reg.trgTwW (c / 2))
  if c % 2 = 0 then bits w 15 0 else bits w 31 16

/-- The tower code of V (06 Table 6.4). -/
def towerCode (v : Nat) : Nat :=
  if v < 64 then v
  else if v < 192 then 64 + (v - 64) / 2
  else if v < 704 then 128 + (v - 192) / 8
  else if v < 2720 then 192 + (v - 704) / 32
  else 255

/-- The outputs of a station's enabled channels at label `x`, by position. -/
def State.towerOuts (s : State) (st x : Nat) : List (Nat × Option Output) :=
  (upto 0 16).filterMap fun k =>
    let c := 16 * st + k
    match (s.chan c).outAt x with
    | some o => if o.en then some (k, some o) else none
    | none => if s.chEn c then some (k, none) else none

/-- What a tower sends for a label (06 R178, R181). -/
structure Tower where
  code : Nat
  /-- Its latency is too short, and it is late. -/
  short : Bool
  late : Bool
  sat : Bool
  settle : Bool
  cal : Bool
  half : Bool
  deriving DecidableEq, Repr

/-- Tower `st` for label `x`; `held`: its sum is not ready under a stretch. -/
def State.tower (s : State) (st x : Nat) (held : Bool) : Tower :=
  let outs := s.towerOuts st x
  let used := outs.filter fun (k, _) => s.twEn st k
  let short := used.any fun (k, _) => s.primLat < (s.fltCfg (16 * st + k) x).lag + 7
  let late := short || held || used.any fun (_, o) => o.isNone
  let live := used.filterMap fun (k, o) => match o with
    | some o => if o.suppressed then none else some (k, o)
    | none => none
  let sum := live.foldl (fun acc (k, o) => acc + (s.twWeight (16 * st + k) : Int) * o.e) 0
  let v := (rnd sum (14 + bits (s.reg (Reg.trgTwCfg st)) 3 0)).toNat
  let code := if late then 0 else towerCode v
  let flag (b : Nat) : Bool := live.any fun (_, o) => o.flags.getLsbD b
  { code := code, short := short, late := late
    sat := flag 1 || code == 255
    settle := outs.any fun (_, o) => match o with | some o => o.suppressed | none => false
    cal := flag 5, half := flag 7 }

/-- The primitive frame (06 Table 6.5). -/
def primFrame (orbit cross flags : Nat) (codes : List Nat) : List LChar :=
  let b := leBytes 2 (cross % 2 ^ 13 + orbit % 8 * 2 ^ 13) ++ codes.map (BitVec.ofNat 8) ++ leBytes 1 flags
  k28_1 :: dataChars (b ++ leBytes 2 (crc16 b).toNat ++ [0, 0])

/-- Bits set from a list of towers. -/
def towerMask (p : Tower → Bool) (ts : List Tower) : Nat :=
  ((ts.zip (upto 0 32)).map fun (t, i) => if p t then 2 ^ i else 0).foldl (· + ·) 0

/-- A frame departs for label `x`, on each primitive lane that is UP. -/
def State.sendPrimitive (s : State) (x notReady : Nat) : State :=
  let d := s.datumAt x
  let on := bit (s.reg Reg.trgCtl) 1
  let ts := (upto 0 32).map fun st => s.tower st x (Nat.testBit notReady st)
  let f (b : Nat) (v : Bool) : Nat := if v then 2 ^ b else 0
  let late := on && ts.any (·.late)
  let base := f 5 s.busy + f 6 (s.ref.holdover || s.ref.free)
  let flags :=
    if on then f 0 late + f 1 (ts.any (·.sat)) + f 2 (ts.any (·.settle)) + f 3 (ts.any (·.cal)) +
      f 4 (ts.any (·.half)) + base
    else base + 128
  let codes := ts.map fun t => if on then t.code else 0
  let t := { s with
    time := { s.time with primAt := some s.time.now }
    trig := { s.trig with primLast := some (x, codes) } }
  let t := [0, 1].foldl (fun t n =>
    if s.laneUp n then t.sendLane n (.primitive x (primFrame d.1 d.2 flags codes)) else t) t
  let t := if late then
      let u := t.event Reg.trgStat 14
      { u with trig := { u.trig with
          twLate := BitVec.ofNat 32 (towerMask (·.late) ts)
          dt := { u.trig.dt with primLate := (u.trig.dt.primLate + 1) % 2 ^ 64 } } }
    else t
  if on && ts.any (·.short) then t.event Reg.trgStat 11 else t

/-- PRIMITIVE_FRAME: the frame for the label PRIM_LAT crossings ago departs; `notReady` lists the towers that a stretch
holds back. -/
def execPrimitiveFrame (notReady : BitVec 32) (s : State) : Host.Outcome State Fault Refusal :=
  whenDue s (s.time.sampling && s.primLat ≤ s.time.xcount && s.time.primAt != some s.time.now)
    (s.sendPrimitive (s.time.xcount - s.primLat) notReady.toNat)

/-! ### Accepts (06 R182 to R184) -/

/-- TRG_WIN for an accept that acts now (06 R185). -/
def State.winNow (s : State) : Word :=
  s.trig.winNext.foldl (fun v (w, x) => if x ≤ s.time.now then w else v) s.trig.win

/-- The Datum that a running count carried; one before the first sampled crossing counts back from it. -/
def State.datumBack (s : State) (a : Int) : Nat × Nat :=
  if 0 ≤ a then s.datumAt a.toNat
  else
    let d := s.datumAt 0
    let n : Int := max s.n 1
    let lin : Int := (d.1 : Int) * n + d.2 + a
    (toTwos 44 (lin / n), (lin % n).toNat)

/-- The header of a fragment or of a class-2 GAP record (06 Table 6.7). -/
def fragHeader (type flags seq datum : Nat) (acc : Accept) (chsel reason nch raw hit : Nat) : List Byte :=
  leBytes 2 0xF2A6 ++ leBytes 1 type ++ leBytes 1 flags ++ leBytes 4 seq ++ leBytes 8 datum ++ leBytes 1 acc.pre ++
    leBytes 1 acc.post ++ leBytes 1 (acc.mode + (if acc.cmp then 4 else 0) + chsel * 8) ++ leBytes 1 reason ++
    leBytes 2 nch ++ leBytes 2 0 ++ leBytes 4 raw ++ leBytes 4 hit

/-- Places the GAP record of an accept in a packet of its own, which releases its queue entry `frees`; one that a share below
its occupancy does not admit waits for it (06 R183, R188; 10 R296). -/
def State.placeAccGap (s : State) (acc : Accept) (reason : Nat) (frees : Option Nat) : State :=
  let d := s.datumBack acc.a
  let h := fragHeader 2 (if acc.self then 16 else 0) acc.seq (datumWord d.1 d.2) acc acc.chsel reason 0 0 0
  let t := s.orWait ⟨2, h, true, false, true, frees⟩
  let g := t.trig
  { t with trig := { g with
      accGapCount := satInc 0xFFFF g.accGapCount
      dt := { g.dt with accGap := (g.dt.accGap + 1) % 2 ^ 64 } } }

/-- An accept of crossing `a` takes the next ACC_SEQ and enters the queue, or becomes a GAP record (06 R182, R183). -/
def State.queueAccept (s : State) (a : Int) (self : Bool) : State :=
  let w := s.winNow
  let g := s.trig
  let d := s.datumBack a
  let acc : Accept := {
    seq := g.accSeqNext, a := a, orbit := d.1, cross := d.2, self := self
    pre := bits w 3 0, post := bits w 8 4, mode := bits w 10 9, cmp := bit w 11, chsel := bits w 13 12
    started := none, hist := false, frag := none }
  let dt := if self then { g.dt with self := (g.dt.self + 1) % 2 ^ 64 } else { g.dt with acc := (g.dt.acc + 1) % 2 ^ 64 }
  let t := { s with trig := { g with accSeqLast := g.accSeqNext, accSeqNext := (g.accSeqNext + 1) % 2 ^ 32, dt := dt } }
  if g.accQueue.length < 256 then { t with trig := { t.trig with accQueue := g.accQueue ++ [acc] } }
  else (t.placeAccGap acc 1 none).event Reg.trgStat 13

/-- ACCEPT: a fast command that acts in this crossing names the crossing TRG_ACC_LAT before it. -/
def execAccept (s : State) : Host.Outcome State Fault Refusal :=
  let t := s.fcDone fcAccept
  whenDue s (s.fcNext fcAccept)
    (if bit (s.reg Reg.trgCtl) 0 then t.queueAccept ((s.time.xcount : Int) - s.fld Reg.trgAccLat 19 0) false
     else t.event Reg.trgStat 12)

/-! ### Fragments (06 R184 to R188) -/

/-- FE_CH.EN of a channel in effect at running count `a`. -/
def State.enAt (s : State) (c : Nat) (a : Int) : Bool :=
  match (s.chan c).enLog.find? fun (x, _) => decide ((x : Int) ≤ a) with
  | some (_, v) => v
  | none => bit (regReset (Reg.feCh c)) 0

/-- The hit and neighbour records that the ring holds for labels `lo` to `hi`, in order: label, channel, record. -/
def State.ringRecords (s : State) (lo hi : Int) : List (Nat × Nat × BitVec 64) :=
  (s.trig.hitRing.filter fun g => decide (lo ≤ (g.lastX : Int)) && decide ((g.firstX : Int) ≤ hi)).reverse.flatMap fun g =>
    g.recs.filterMap fun v =>
      let x : Nat := g.firstX + v.toNat / 2 ^ 50 % 32
      if lo ≤ (x : Int) ∧ (x : Int) ≤ hi then some (x, v.toNat / 2 ^ 55, v) else none

/-- The labels whose records select channels under CHSEL 01: the accepted crossing, or, when that has left the ring, those of the
window that the ring still holds (06 R185, R186; notes/assumptions/112.md). -/
def State.selLabels (s : State) (acc : Accept) : Int × Int :=
  if acc.a < (s.trig.ringFrom : Int) then (acc.a - acc.pre, acc.a + acc.post) else (acc.a, acc.a)

/-- The channels that CHSEL `sel` selects (06 R185). TRG_CHMASK is read when service starts: DESIGN CHOICE
(notes/assumptions/112.md). -/
def State.selected (s : State) (acc : Accept) (sel : Nat) : List Nat :=
  let lab := s.selLabels acc
  let a := acc.a
  let hit := (s.ringRecords lab.1 lab.2).map fun p => p.2.1
  (upto 0 512).filter fun c =>
    let m := bit (s.reg (Reg.trgChmask (c / 32))) (c % 32)
    match sel with
    | 0 => s.enAt c a
    | 1 => memNat hit c
    | 2 => m
    | _ => m || memNat hit c

/-- The raw section (06 R187). -/
def Fragment.rawSection (g : Fragment) (cmp : Bool) : List Byte :=
  padTo 8 (g.data.flatMap fun xs =>
    if cmp then tokenBytes (encodeStream g.cmpCtl g.cmpDist xs) else xs.flatMap (leBytes 2))

/-- A record of the ring as a fragment carries it: XOFF from a − PRE. -/
def fragRecord (from_ : Int) (p : Nat × Nat × BitVec 64) : BitVec 64 :=
  let off := ((p.1 : Int) - from_).toNat
  BitVec.ofNat 64 (p.2.2.toNat / 2 ^ 55 * 2 ^ 55 + off * 2 ^ 50 + p.2.2.toNat % 2 ^ 50)

/-- The bytes of a fragment (06 R187). -/
def State.fragment (s : State) (acc : Accept) (g : Fragment) : List Byte :=
  let d := s.datumBack acc.a
  let list := if acc.mode = 0 then [] else g.chans
  let raw := if acc.mode % 2 = 1 then g.rawSection acc.cmp else []
  let hit := if 2 ≤ acc.mode then g.hits.flatMap fun v => leBytes 8 v.toNat else []
  fragHeader 1 g.flags acc.seq (datumWord d.1 d.2) acc g.chsel 0 list.length raw.length hit.length ++
    padTo 8 (list.flatMap (leBytes 2)) ++ raw ++ hit

/-- A fragment as its assembly gives it: the containers of words beyond correction are 0xC000, and it carries PARTIAL
(14 Table 14.4). -/
def Fragment.damaged (g : Fragment) (ue : List (Nat × Nat × WordAt)) : Fragment :=
  let hit := ue.filter fun u => (g.data.drop u.1).head?.any fun xs => u.2.1 < xs.length
  { g with
    data := hit.foldl (fun d u => listSet d u.1 (listSet ((d.drop u.1).headD []) u.2.1 0xC000)) g.data
    flags := if hit.isEmpty then g.flags else g.flags ||| 32 }

/-- Window of an accept: first crossing and length. -/
def Accept.window (acc : Accept) : Int × Nat := (acc.a - acc.pre, acc.pre + acc.post + 1)

/-- Words read beyond correction, each counted in its bank. -/
def State.wordErrors (s : State) (ws : List WordAt) : State := ws.foldl State.sramUe s

/-- A window cut from PIPE and the hit ring (06 R184 to R187). `ue` lists the PIPE words read uncorrectable by the container that
each held, `hitUe` those of the hit ring by the record of the window (14 Table 14.4). -/
def State.cutPipe (s : State) (acc : Accept) (ue hitUe : List (Nat × WordAt)) : Fragment × State :=
  let (lo, n) := acc.window
  let chans := s.selected acc acc.chsel
  let early := decide (lo < 0)
  let hi := lo + n - 1
  let recs := (s.ringRecords lo hi).filter fun p => memNat chans p.2.1
  let recs := (recs.zip (upto 0 recs.length))
  let bad := hitUe.map Prod.fst
  let omitted := 2 ≤ acc.mode && recs.any fun p => memNat bad p.2
  let hits := (recs.filter fun p => !memNat bad p.2).map fun p => fragRecord lo p.1
  let lost := ue.map Prod.fst
  let data := chans.map fun c => (upto 0 n).flatMap fun (i : Nat) =>
    let x : Int := lo + i
    if x < 0 then List.replicate 4 0xC000
    else (upto 0 4).map fun k => if memNat lost (pipeKey x.toNat c k) then 0xC000 else s.pipeAt x.toNat c k
  let keys := if acc.mode % 2 = 1 then ue.filter fun u =>
      memNat chans (u.1 % 2048 / 4) && (upto 0 n).any fun (i : Nat) => decide (0 ≤ lo + i) && (lo + i).toNat % 4096 == u.1 / 2048
    else []
  let trunc := omitted || decide (max lo 0 < (s.trig.ringFrom : Int))
  let flags := (if trunc then 8 else 0) + (if acc.self then 16 else 0) + (if early || !keys.isEmpty then 32 else 0)
  let t := s.wordErrors (keys.map fun u => { u.2 with bank := u.1 % 2048 / 64 })
  let t := if omitted then
      t.wordErrors ((hitUe.filter fun u => u.1 < recs.length).map fun u => inBanks u.2 32 12)
    else t
  let (ctl, dist) := s.cmpFor (s.time.xcount / 256)
  (⟨chans, data, hits, flags, acc.chsel, ctl, dist⟩, t)

/-- CHSEL as a fragment from the history store applies it (06 R186). -/
def histSel (sel : Nat) : Nat := if sel = 1 ∨ sel = 3 then 2 else sel

/-- The block periods and stations that a window needs. -/
def windowBlocks (lo : Int) (n : Nat) (chans : List Nat) : List (Nat × Nat) :=
  let hi := lo + n - 1
  if hi < 0 then []
  else
    let p0 := lo.toNat / 256
    let p1 := hi.toNat / 256
    let sts := (upto 0 32).filter fun st => chans.any fun c => c / 16 == st
    (if p0 = p1 then [p0] else [p0, p1]).flatMap fun p => sts.map fun st => (p, st)

/-- A window read from the history store (06 R186). `ue` lists the blocks, as 32 × period + station, that hold an error
beyond correction; `ecc` and `row` are what the check of the first block read, and of its index entry, finds. -/
def State.cutHist (s : State) (acc : Accept) (ecc : StackRead) (row : Nat) (ue : List Nat) : Fragment × State :=
  let (lo, n) := acc.window
  let sel := histSel acc.chsel
  let chans := s.selected acc sel
  let raw := acc.mode % 2 == 1
  let early := decide (lo < 0)
  let blks := if raw then windowBlocks lo n chans else []
  let step (acc' : List (Nat × Nat × BlockRead) × State) (b : Nat × Nat) : List (Nat × Nat × BlockRead) × State :=
    let (got, t) := acc'
    let e : EccResult := if memNat ue (blockKey b.1 b.2) then .uncorrectable
      else if got.isEmpty && ecc.ecc != .uncorrectable then ecc.ecc else .clean
    let t := if got.isEmpty then t.indexRead b.1 b.2 ecc.entry else t
    let poss := (upto 0 16).filter fun k => memNat chans (16 * b.2 + k)
    let (r, t) := t.readBlock b.1 b.2 poss e row
    (got ++ [(b.1, b.2, r)], t)
  let (got, t) := blks.foldl step ([], s)
  let data := chans.map fun c => (upto 0 n).flatMap fun (i : Nat) =>
    let x : Int := lo + i
    if x < 0 then List.replicate 4 0xC000
    else match got.find? fun (p, st, _) => p == x.toNat / 256 && st == c / 16 with
      | some (_, _, r) => r.containers (c % 16) (x.toNat % 256) 1
      | none => List.replicate 4 0xC000
  let absent := got.any fun (_, st, r) => r.got.isNone || r.error ||
    (upto 0 n).any fun (i : Nat) => decide (0 ≤ lo + i) && t.lostAt st (lo + i).toNat
  let flags := 1 + 2 + (if sel != acc.chsel then 4 else 0) + (if acc.self then 16 else 0) +
    (if early || absent then 32 else 0)
  let (ctl, dist) := s.cmpFor (s.time.xcount / 256)
  (⟨chans, data, [], flags, sel, ctl, dist⟩, t)

/-- The accept's age at the start of service makes it PIPE-served (06 R184). -/
def State.pipeServed (s : State) (acc : Accept) : Bool := decide ((s.time.xcount : Int) - acc.a < 3840)

/-- The group that holds label a + POST has been formed (06 R184). -/
def State.windowIn (s : State) (acc : Accept) : Bool := decide (acc.a + acc.post < (s.trig.groupX : Int))

/-- The blocks of a history-served window are written and indexed. -/
def State.blocksIn (s : State) (acc : Accept) : Bool :=
  let (lo, n) := acc.window
  let hi := (lo + n - 1).toNat / 256
  hi < s.hist.periods && !s.hist.toIndex.any fun p => lo.toNat / 256 ≤ p.1 && p.1 ≤ hi

/-- EVB 13 to 15 are awake (14 R398). -/
def State.evbAwake (s : State) : Bool :=
  [16, 17, 18].all fun m => !memNat s.mem.asleep m && !memNat s.mem.waking m

/-- The accepts that the history store serves go in their order: the first one, when its blocks are in (06 R184). -/
def State.historyAccept (s : State) : Option Accept :=
  (s.trig.accQueue.find? fun a => a.started.isNone && !s.pipeServed a).filter fun a => s.windowIn a && s.blocksIn a

/-- Assembly can start to serve accepts (14 R398, 15 Table 15.1). -/
def State.assemblyUp (s : State) : Bool := s.time.sampling && s.evbAwake && !(s.engine 2).restarting

/-- A fragment read waits for the history store: it ranks ahead of recalls (07 R236, R238). -/
def State.fragmentWaits (s : State) : Bool := s.assemblyUp && s.historyAccept.isSome

/-- The accept whose service starts next: the first one of either path, when it is ready (06 R184). A scrub in debt takes
its slot ahead of a fragment read (07 R236). -/
def State.nextService (s : State) : Option Accept :=
  let pipe := (s.trig.accQueue.find? fun a => a.started.isNone && s.pipeServed a).filter fun a =>
    s.windowIn a && s.time.cutAt != some s.time.now
  let hist := if s.scrubClaims then none else s.historyAccept
  match pipe, hist with
  | some p, some h => if p.a ≤ h.a then some p else some h
  | some p, none => some p
  | none, h => h

/-- Service of an accept starts and its window is cut. -/
def State.startService (s : State) (acc : Accept) (ecc : StackRead) (row : Nat) (ue hitUe : List (Nat × WordAt)) : State :=
  let pipe := s.pipeServed acc
  let (b, t) := if pipe then s.cutPipe acc ue hitUe else s.cutHist acc ecc row (ue.map Prod.fst)
  let g := t.trig
  let upd (a : Accept) : Accept :=
    if a.seq == acc.seq then { a with started := some t.time.now, hist := !pipe, frag := some b } else a
  { t with
    time := if pipe then { t.time with cutAt := some t.time.now } else t.time
    trig := { g with
      accQueue := g.accQueue.map upd
      dt := if pipe then g.dt else { g.dt with accHist := (g.dt.accHist + 1) % 2 ^ 64 } } }

/-- ACCEPT_SERVICE_START. -/
def execAcceptServiceStart (ecc : StackRead) (row : Nat) (ue hitUe : List (Nat × WordAt)) (s : State) :
    Host.Outcome State Fault Refusal :=
  match s.nextService with
  | some acc => whenDue s s.assemblyUp (s.startService acc ecc row ue hitUe)
  | none => .next s

/-- The window of an accept that PIPE serves holds crossings that a station island could not take: those of a channel that it
selected, or, under CHSEL 01 and 11, the accepted crossing, whose records would have selected (01 R34, 06 R185). -/
def State.sagWindow (s : State) (acc : Accept) : Bool :=
  let (lo, n) := acc.window
  let chans := match acc.frag with
    | some g => g.chans
    | none => []
  !acc.hist && (chans.any (fun c =>
      (upto 0 n).any fun (i : Nat) => decide (0 ≤ lo + i) && s.sagAt (c / 16) (lo + i).toNat) ||
    (acc.chsel % 2 == 1 && decide (0 ≤ acc.a) && (upto 0 512).any fun c => s.enAt c acc.a && s.sagAt (c / 16) acc.a.toNat))

/-- EVB 13 to 15 enter retention while their bit is set, ACC_EN = 0 and no fragment is being assembled (14 R397). -/
def State.evbRetention (s : State) : State :=
  if !bit (s.reg Reg.trgCtl) 0 && !s.trig.accQueue.any fun a => a.frag.isSome then
    let sl := [16, 17, 18].filter fun m => bit (s.reg Reg.memSleep) m && !memNat s.mem.waking m
    { s with mem := { s.mem with asleep := sl.foldl insNat s.mem.asleep } }
  else s

/-- What a fragment leaves free in the class-2 share: room for the GAP record of every accept that is queued and of one that
comes with the queue full (10 R308; notes/assumptions/106.md). -/
def State.gapRoom (s : State) : Nat := 64 * s.trig.accQueue.length

/-- The fragment of an accept is placed, or its GAP record, with which its queue entry is released (06 R183, R188). For a
fragment that a sag took, R34 gives no REASON: the record has 2, as for one that the spool could not take
(notes/assumptions/62.md). -/
def State.placeFragment (s : State) (acc : Accept) (b : List Byte) : State :=
  let s := { s with trig := { s.trig with
    accQueue := s.trig.accQueue.map fun a => if a.seq == acc.seq then { a with frag := none } else a } }
  let gap (t : State) : State := t.placeAccGap acc 2 (some acc.seq)
  State.evbRetention (if s.sagWindow acc then gap s else
    match s.tryShare 2 s.gapRoom fun t =>
        ((t.closePacket 2 false).placeLong 2 b true (2 * (b.length / 4096) + 4)).closePacket 2 false with
    | some t => (if Nat.testBit (byteAt b 3) 3 then t.event Reg.hitStat 2 else t).freeAccept (some acc.seq)
    | none => gap (s.gapFull 2))

/-- A fragment leaves its assembly, with what EVB 13 to 15 could not give (14 Table 14.4). -/
def State.completeFragment (s : State) (acc : Accept) (g : Fragment) (ue : List (Nat × Nat × WordAt)) : State :=
  let ue := if acc.mode % 2 = 1 then ue.filter fun u => (g.data.drop u.1).head?.any fun xs => u.2.1 < xs.length else []
  (s.wordErrors (ue.map fun u => inBanks u.2.2 45 3)).placeFragment acc (s.fragment acc (g.damaged ue))

/-- FRAGMENT_COMPLETE: fragments leave in the order of their completion. -/
def execFragmentComplete (f : FragRead) (s : State) : Host.Outcome State Fault Refusal :=
  match s.trig.accQueue.find? fun a => a.seq == f.seq with
  | some acc =>
    match acc.frag with
    | some g => .next (s.completeFragment acc g f.ue)
    | none => .next s
  | none => .next s

/-- EVB 13 to 15 wake (14 R397, R398). -/
def State.evbWake (s : State) : State :=
  [16, 17, 18].foldl (fun t m => if memNat t.mem.asleep m then t.wake m else t) s

/-- The access that waited for the wake of a macro counts among its master's: the spool's write, for a SPOOL macro that was given
a packet while it woke, and the event builder's, for an accept whose service can start with the last of EVB 13 to 15 that
has woken (14 R394, R398, Table 14.2). -/
def State.wakeWait (s : State) (m : Nat) : State :=
  if m < 16 then (if s.macroUnits m = 0 then s else s.noteWait 2)
  else if s.assemblyUp && s.nextService.isSome then s.noteWait 1
  else s

/-- MACRO_WAKE: a macro that is waking, named by its bit of MEM_SLEEP, has woken (14 R398). -/
def execMacroWake (bank : Nat) (s : State) : Host.Outcome State Fault Refusal :=
  whenDue s (memNat s.mem.waking bank)
    ((State.wakeWait { s with mem := { s.mem with waking := delNat s.mem.waking bank } } bank).spoolRetention.evbRetention)

/-! ### The state sequencer (06 R189 to R191) -/

/-- Byte `b` of state entry `i`. -/
def State.trvByte (s : State) (i b : Nat) : Nat :=
  bits (s.reg (Reg.trgTrvState (4 * i + b / 4))) (8 * (b % 4) + 7) (8 * (b % 4))

/-- COND_ARG and ACT_ARG of a state entry. -/
def State.trvArg (s : State) (i w : Nat) : Nat := (s.reg (Reg.trgTrvState (4 * i + w))).toNat

/-- TIMEOUT of a state entry. -/
def State.trvTimeout (s : State) (i : Nat) : Nat := bits (s.reg (Reg.trgTrvState (4 * i + 1))) 15 0

/-- The current state's condition holds in this crossing, with its event label (06 Table 6.9). A condition that the table
does not give never holds (notes/assumptions/23.md). -/
def State.trvCond (s : State) : Option Nat :=
  let v := s.trig.trv
  let x := s.time.xcount
  let now := s.time.now
  let arg := s.trvArg v.state 2
  let if_ (b : Bool) : Option Nat := if b then some x else none
  match s.trvByte v.state 0 with
  | 0 => some x
  | 1 => if_ (v.entered + arg ≤ now)
  | 2 =>
    if s.time.groupAt = some now then
      ((s.trig.hitNow.filter fun p => Nat.testBit arg p.1).map Prod.snd).foldl (fun acc y => match acc with
        | some z => some (min z y)
        | none => some y) none
    else none
  | 3 =>
    if s.time.primAt = some now then
      match s.trig.primLast with
      | some (l, codes) => if arg % 256 ≤ (codes.drop (arg / 2 ^ 24 % 32)).headD 0 then some l else none
      | none => none
    else none
  | 4 => if_ (s.trig.ctr.failAt == some now)
  | 5 => if_ (s.trig.calpulses.head? == some x)
  | 6 => if_ s.atGap
  | 7 => if_ (s.time.cross == 0)
  | 8 => if_ ((v.counters.drop (arg / 2 ^ 24 % 4)).headD 0 < arg % 65536)
  | _ => none

/-- The sequencer runs, is in its state, and the state has not timed out. -/
def State.trvLive (s : State) : Bool :=
  let v := s.trig.trv
  let to_ := s.trvTimeout v.state
  v.run && v.entered ≤ s.time.now && (to_ == 0 || s.time.now < v.entered + to_)

/-- State `next` is entered at crossing `at_`; 0xFF stops (06 Table 6.8; other values above 63: notes/assumptions/23.md). -/
def State.trvEnter (s : State) (next at_ : Nat) : State :=
  let v := s.trig.trv
  { s with trig := { s.trig with trv :=
      if next = 0xFF then { v with run := false } else { v with state := next % 64, entered := at_ } } }

/-- Writes AMP of an injection source (06 Table 6.10). -/
def State.setAmp (s : State) (src : Nat) (v : Int) : State :=
  s.setFld (Reg.feInjSet src) 15 0 (clampI 0 65535 v).toNat

/-- The action of a state (06 Table 6.10); one that the table does not give has no effect (notes/assumptions/23.md). -/
def State.trvAction (s : State) (i label : Nat) : State :=
  let arg := s.trvArg i 3
  let src := arg / 65536 % 4
  match s.trvByte i 1 with
  | 1 => s.queueAccept ((label : Int) + sext 16 arg) true
  | 2 => s.setAmp src (arg % 65536 : Nat)
  | 3 => s.setAmp src ((s.fld (Reg.feInjSet src) 15 0 : Nat) + sext 16 arg)
  | 4 =>
    let v := s.trig.trv
    let k := arg % 4
    { s with trig := { s.trig with trv := { v with
        counters := listSet v.counters k (satInc 0xFFFF ((v.counters.drop k).headD 0)) } } }
  | 5 => { s with trig := { s.trig with trv := { s.trig.trv with alert := true } } }
  | 6 => { s with trig := { s.trig with trv := { s.trig.trv with run := false } } }
  | _ => s

/-- The condition holds: the action runs, and NEXT_T is entered at the next crossing (06 R190). -/
def State.trvStep (s : State) (label : Nat) : State :=
  let i := s.trig.trv.state
  let t := s.trvAction i label
  if t.trig.trv.run then t.trvEnter (s.trvByte i 2) (s.time.now + 1) else t

/-- A step of the sequencer whose action is one of `acts`. A self-accept comes after a downlink ACCEPT of its crossing
(06 R191). -/
def trvWith (acts : Nat → Bool) (s : State) : Host.Outcome State Fault Refusal :=
  match s.trvCond with
  | some l =>
    let a := s.trvByte s.trig.trv.state 1
    whenDue s (s.trvLive && acts a && (a != 1 || !s.fcActs fcAccept)) (s.trvStep l)
  | none => .next s

/-- TRAVERSE_STEP: the current state's condition holds; its action runs and NEXT_T is entered. -/
def execTraverseStep (s : State) : Host.Outcome State Fault Refusal := trvWith (fun _ => true) s

/-- SELF_ACCEPT: a step whose action queues an accept at the event label plus an offset. -/
def execSelfAccept (s : State) : Host.Outcome State Fault Refusal := trvWith (· == 1) s

/-- LOAD_AMP: a step whose action writes AMP of a source. -/
def execLoadAmp (s : State) : Host.Outcome State Fault Refusal := trvWith (· == 2) s

/-- ADD_AMP: a step whose action adds to AMP of a source. -/
def execAddAmp (s : State) : Host.Outcome State Fault Refusal := trvWith (· == 3) s

/-- COUNT: a step whose action increments a counter. -/
def execCount (s : State) : Host.Outcome State Fault Refusal := trvWith (· == 4) s

/-- ALERT: a step whose action sets TRV_ALERT. -/
def execAlert (s : State) : Host.Outcome State Fault Refusal := trvWith (· == 5) s

/-- STOP: a step whose action stops the sequencer. -/
def execStop (s : State) : Host.Outcome State Fault Refusal := trvWith (· == 6) s

/-- TRAVERSE_TIMEOUT: the condition has not held in the first TIMEOUT crossings; NEXT_F is entered (06 R190). -/
def execTraverseTimeout (s : State) : Host.Outcome State Fault Refusal :=
  let v := s.trig.trv
  let to_ := s.trvTimeout v.state
  whenDue s (v.run && to_ != 0 && v.entered + to_ ≤ s.time.now)
    (s.trvEnter (s.trvByte v.state 3) (v.entered + to_))

/-- The sequencer starts in state `i` at crossing `at_`, with its counters 0 (06 R190, R191). -/
def State.trvStartAt (s : State) (i at_ : Nat) : State :=
  { s with trig := { s.trig with trv := { s.trig.trv with
      run := true, state := i % 64, entered := at_, counters := [0, 0, 0, 0] } } }

/-- The sequencer stops. -/
def State.trvHalt (s : State) : State :=
  { s with trig := { s.trig with trv := { s.trig.trv with run := false } } }

/-- TRAVERSE_START: the stake starts the sequencer at its target crossing (06 R191). -/
def execTraverseStart (s : State) : Host.Outcome State Fault Refusal :=
  match s.dueStake 0x06 with
  | some k => .next ((s.trvStartAt (byteAt k.args 0) s.time.now).ranStake k 0)
  | none => .next s

/-! ### Waveform mask tests (06 R192 to R194) -/

/-- Word `w` of mask `m`. -/
def State.maskWord (s : State) (m w : Nat) : Word := s.reg (regKey (Reg.trgCtrW w) m)

/-- CHANNEL, ALIGN, LEN as it acts, LEVEL, PRE and FLAGS of a mask (06 Table 6.11; LEN above 64:
notes/assumptions/23.md). -/
def State.maskChan (s : State) (m : Nat) : Nat := bits (s.maskWord m 0) 8 0
def State.maskAlign (s : State) (m : Nat) : Nat := bits (s.maskWord m 0) 23 16
def State.maskLen (s : State) (m : Nat) : Nat := min 64 (bits (s.maskWord m 0) 31 24)
def State.maskLevel (s : State) (m : Nat) : Int := (s.maskWord m 1).toInt
def State.maskPre (s : State) (m : Nat) : Nat := min 63 (bits (s.maskWord m 2) 7 0)
def State.maskFlag (s : State) (m b : Nat) : Bool := bit (s.maskWord m 2) (8 + b)

/-- A mask's state. -/
def State.mask (s : State) (m : Nat) : Mask := tabGet Mask.init s.trig.ctr.masks m

/-- Replaces a mask's state. -/
def State.setMask (s : State) (m : Nat) (v : Mask) : State :=
  { s with trig := { s.trig with ctr := { s.trig.ctr with masks := tabSet Mask.init s.trig.ctr.masks m v } } }

/-- A mask is enabled. -/
def State.maskEn (s : State) (m : Nat) : Bool := m < 8 && bit (s.reg Reg.trgCtrCtl) m

/-- The samples of a channel that count as formed, oldest first (04 R105). -/
def State.formed (s : State) (c from_ : Nat) : List Sample :=
  ((s.chan c).hist.takeWhile fun v => from_ ≤ v.n).reverse.filter fun v => v.n / 4 + 2 ≤ s.time.xcount

/-- The next alignment sample of a mask (06 R193); it counts once it has been formed. -/
def State.alignment (s : State) (m : Nat) : Option Nat :=
  let c := s.maskChan m
  let q := s.mask m
  match s.maskAlign m with
  | 0 =>
    let lv := s.maskLevel m
    let vs := s.formed c (q.scan - 1)
    ((vs.zip (vs.drop 1)).find? fun (a, b) => q.scan ≤ b.n && a.n + 1 == b.n &&
      (if 0 ≤ lv then decide (a.m < lv) && decide (lv ≤ b.m) else decide (lv < a.m) && decide (b.m ≤ lv))).map
      fun p => p.2.n
  | 1 => (s.trig.calpulses.reverse.find? fun x => q.scan ≤ 4 * x && x + 2 ≤ s.time.xcount).map (4 * ·)
  | 2 =>
    (((s.chan c).hitLabels.reverse).map fun x => 4 * x + (s.fltCfg c x).p).find? fun n => q.scan ≤ n
  | _ => none

/-- The first violating sample of a test in progress: index, sample, below LO, above HI (06 R193). -/
def State.violation (s : State) (m : Nat) : Option (Nat × Sample × Bool × Bool) :=
  match (s.mask m).test with
  | some t =>
    let vs := s.formed (s.maskChan m) t.first.toNat
    (upto 0 t.len).findSome? fun (i : Nat) =>
      match vs.find? fun v => decide ((v.n : Int) = t.first + (i : Int)) with
      | some (v : Sample) =>
        let lo := (s.maskWord m (8 + 2 * i)).toInt
        let hi := (s.maskWord m (9 + 2 * i)).toInt
        if v.range = 3 ∨ (s.maskFlag m 2 ∧ v.edge) then none
        else if v.m < lo ∨ hi < v.m then some (i, v, decide (v.m < lo), decide (hi < v.m)) else none
      | none => none
  | none => none

/-- An alignment starts a test, or is counted BUSY while one is in progress at its sample; the hits of a group may become known
after a violation that ended the test (06 R193). -/
def State.alignMask (s : State) (m n0 : Nat) : State :=
  let q := s.mask m
  let busy := n0 < q.ended || match q.test with
    | some t => decide ((n0 : Int) < t.first + t.len)
    | none => false
  if busy then
    let u := s.setMask m { q with scan := n0 + 1 }
    { u with trig := { u.trig with ctr := { u.trig.ctr with busy := satInc 0xFFFF u.trig.ctr.busy } } }
  else s.setMask m ⟨some ⟨n0, (n0 : Int) - s.maskPre m, s.maskLen m⟩, n0 + 1, q.ended⟩

/-- The next alignment of a mask comes no later than the violating sample of its test, when there is one: the test is still
in progress at it (06 R193). -/
def State.alignsFirst (s : State) (m : Nat) : Bool :=
  match s.alignment m, s.violation m with
  | some n0, some (_, v, _, _) => n0 ≤ v.n
  | some _, none => true
  | none, _ => false

/-- CONTOUR_TEST: an alignment of an enabled mask; a violation before it comes first. -/
def execContourTest (mask : Nat) (s : State) : Host.Outcome State Fault Refusal :=
  match s.alignment mask with
  | some n0 => whenDue s (s.maskEn mask && s.alignsFirst mask) (s.alignMask mask n0)
  | none => .next s

/-- A mask violation record (06 R198). -/
def maskRecord (c m i datum : Nat) (v limit : Int) (below above : Bool) : List Byte :=
  monHeader 0x12 m 32 0 datum ++ leBytes 2 c ++ leBytes 1 m ++ leBytes 1 i ++ leBytes 4 (toTwos 32 v) ++
    leBytes 4 (toTwos 32 limit) ++ leBytes 1 ((if below then 1 else 0) + (if above then 2 else 0)) ++ leBytes 3 0

/-- A violation ends the test (06 R194). -/
def State.violate (s : State) (m i : Nat) (v : Sample) (below above : Bool) : State :=
  let c := s.maskChan m
  let x := v.n / 4
  let d := s.datumAt x
  let lim := (s.maskWord m ((if below then 8 else 9) + 2 * i)).toInt
  let n0 := match (s.mask m).test with | some t => t.n0 | none => v.n
  let t := s.setMask m ⟨none, (s.mask m).scan, v.n + 1⟩
  let k := t.trig.ctr
  let t := { t with trig := { t.trig with ctr := { k with
      violations := satInc 0xFFFF k.violations
      viol := d
      vinfo := place c 0 ||| place m 12 ||| place i 16 ||| bitAt 24 below ||| bitAt 25 above
      failAt := some t.time.now } } }
  let t := (t.event Reg.trgStat 15).placeMonitor
    (maskRecord c m i (datumWord d.1 d.2) v.m lim below above) 0x12 x 1 (datumWord d.1 d.2)
  let t := if s.maskFlag m 0 then t.setReg Reg.trgCtrCtl (t.reg Reg.trgCtrCtl &&& ~~~(place 1 m)) else t
  if s.maskFlag m 1 then t.queueAccept (n0 / 4 : Nat) true else t

/-- CONTOUR_VIOLATION: a tested sample leaves its limits; an alignment that comes no later is counted BUSY first. -/
def execContourViolation (mask : Nat) (s : State) : Host.Outcome State Fault Refusal :=
  match s.violation mask with
  | some (i, v, lo, hi) => whenDue s (s.maskEn mask && !s.alignsFirst mask) (s.violate mask i v lo hi)
  | none => .next s

/-! ### The dead-time record (06 R197) -/

/-- DEAD_TIME_RECORD: the counts since the previous record, placed in class 4. -/
def State.deadTime (s : State) : State :=
  if s.time.sampling then
    let g := s.trig
    let a := g.dt
    let b := g.dtPrev
    let x := g.dtFrom
    let d := s.datumAt x
    let dw := datumWord d.1 d.2
    let one (p q : Nat) : List Byte := leBytes 4 ((p + 2 ^ 64 - q) % 2 ^ 64)
    let rec_ := monHeader 0x11 0 48 0 dw ++ one a.acc b.acc ++ one a.self b.self ++ one a.accGap b.accGap ++
      one a.accHist b.accHist ++ one a.busyX b.busyX ++ one a.hitGapX b.hitGapX ++ one a.profGapX b.profGapX ++
      one a.primLate b.primLate
    let t := { s with trig := { g with dtPrev := a, dtFrom := s.time.xcount } }
    t.placeMonitor rec_ 0x11 x (s.time.xcount - x) dw
  else s

end Sys2Proof.Machine
end

