-- ==== Sys2Proof/Machine/Recall.lean ====
section
/-!
DEFINITION. Recalls and pins (07 R214 to R235): acceptance, the output stream in units, outcomes, pinning.
-/

namespace Sys2Proof.Machine

open Sys2Proof

/-! ### The descriptor (07 R214 to R217) -/

/-- Fields of a RECALL body (07 Table 7.3). -/
structure RecallDesc where
  start : Nat
  count : Nat
  countHi : Nat
  form : Nat
  base : Bool
  pin : Bool
  noOut : Bool
  maskSel : Bool
  resume : Bool
  chainLen : Nat
  posMask : Nat
  stnMask : Nat
  wait : Nat
  chainAddr : Nat
  maskAddr : Nat
  resumeX : Nat
  resumeStn : Nat
  resumePos : Nat
  /-- A reserved bit is not 0 (the upper bits of a resume point: notes/assumptions/41.md). -/
  reserved : Bool
  deriving DecidableEq, Repr

/-- Reads the body of a RECALL. -/
def Fetched.recallDesc (f : Fetched) : RecallDesc :=
  let fl := f.body 12 1
  let base := Nat.testBit fl 2
  { start := f.body 0 8
    count := f.body 8 3, countHi := f.body 11 1
    form := fl % 4, base := base, pin := Nat.testBit fl 3, noOut := Nat.testBit fl 4
    maskSel := Nat.testBit fl 5, resume := Nat.testBit fl 6
    chainLen := f.body 13 1 % 32
    posMask := f.body 14 2, stnMask := f.body 16 4, wait := f.body 20 3
    chainAddr := f.body 24 8, maskAddr := f.body 32 8
    resumeX := f.body 40 6, resumeStn := f.body 46 1 % 32, resumePos := f.body 47 1 % 16
    reserved := f.body 11 1 != 0 || 128 ≤ fl || 32 ≤ f.body 13 1 || f.body 23 1 != 0 ||
      (Nat.testBit fl 6 && (32 ≤ f.body 46 1 || (fl % 4 < 2 && 16 ≤ f.body 47 1))) ||
      (!base && f.body 0 8 / 2 ^ 13 % 2 ^ 7 != 0) }

/-- Channels that a mask of 64 bytes selects. -/
def maskChans (m : List Byte) : List Nat := (upto 0 512).filter fun c => Nat.testBit (byteAt m (c / 8)) (c % 8)

/-- The selected channels, ascending (07 R215). -/
def RecallDesc.chans (d : RecallDesc) (mask : Option (List Byte)) : List Nat :=
  if d.maskSel then match mask with
    | some m => maskChans m
    | none => []
  else (upto 0 512).filter fun c => Nat.testBit d.stnMask (c / 16) && Nat.testBit d.posMask (c % 16)

/-- The 48 low bits `v` extended to the value nearest to `x` (07 R217); one below 0 lies in no window. -/
def extend48 (v x : Nat) : Int := (x : Int) + sext 48 (v + 2 ^ 48 - x % 2 ^ 48)

/-- The window's first crossing; none when a Datum does not resolve. -/
def State.recallStart (s : State) (d : RecallDesc) : Option Nat :=
  if d.base then some d.start else s.resolveDatum (d.start / 2 ^ 20) (d.start % 2 ^ 13)

/-- The chain list: address and length of each buffer, and its reserved word. -/
def chainEntries (n : Nat) (b : List Byte) : List (Nat × Nat × Nat) :=
  (upto 0 n).map fun i => (le b (16 * i) 8, le b (16 * i + 8) 4, le b (16 * i + 12) 4)

/-- Order 1 of Table 7.6. -/
def State.recallBadDesc (s : State) (d : RecallDesc) (p : Option Prep) : Bool :=
  let mask := p.bind (·.mask)
  let chain := (p.bind (·.chain)).getD []
  d.count == 0 || 8388608 < d.count || d.reserved || (d.noOut && !d.pin) ||
    (d.resume && (!d.base || (let x := extend48 d.resumeX s.time.xcount
      decide (x < d.start) || decide (((d.start + d.count : Nat) : Int) ≤ x)))) ||
    (d.chainLen == 0 && !d.noOut) || 16 < d.chainLen ||
    (if d.maskSel then (mask.isSome && (d.chans mask).isEmpty) else (d.chans none).isEmpty) ||
    (match s.recallStart d with
      | some x => s.time.xcount + 2 ^ 24 < x
      | none => false) ||
    ((chainEntries (min 16 d.chainLen) chain).any fun e => e.2.2 != 0)

/-- Least length of a buffer (07 R216). -/
def RecallDesc.minBuf (d : RecallDesc) : Nat := if d.form = 2 then 32880 else 256

/-- Order 2 of Table 7.6. -/
def State.recallBadAddr (d : RecallDesc) (p : Option Prep) : Bool :=
  let chain := (p.bind (·.chain)).getD []
  (0 < d.chainLen && d.chainAddr % 8 != 0) || (d.maskSel && d.maskAddr % 8 != 0) ||
    (match p with | some p => p.failed | none => false) ||
    (chainEntries d.chainLen chain).any fun e => e.1 % 8 != 0 || e.2.1 % 8 != 0 || e.2.1 < d.minBuf

/-- Stations with a selected channel. -/
def stationsOf (chans : List Nat) : List Nat := (upto 0 32).filter fun st => chans.any fun c => c / 16 == st

/-- A block is in the ring region or pinned. -/
def State.present (s : State) (period st : Nat) : Bool :=
  match s.blockAt period st with
  | .ring _ _ | .pinned _ _ => true
  | _ => false

/-- A block was in the store and has left it. -/
def State.gone (s : State) (period st : Nat) : Bool :=
  match s.blockAt period st with
  | .gone => true
  | _ => false

/-- A block is not yet indexed (07 R228). -/
def State.future (s : State) (period st : Nat) : Bool :=
  match s.blockAt period st with
  | .future => true
  | _ => false

/-- The oldest period whose blocks are present, in the ring region or under a pin, for all of `sts`; the next to be written
with none (07 R223). -/
def State.oldestPresent (s : State) (sts : List Nat) : Nat :=
  let ks := (s.hist.blocks.map fun b => b.1 / 32) ++ (s.hist.pinBlocks.map fun b => b.1 / 32)
  (ks.filter fun q => sts.all (s.present q)).foldl min s.hist.periods

/-! ### Results (07 Table 7.7) -/

/-- The recall result. -/
def recallResult (resume : Option (Nat × Nat × Nat)) (winX flags : Nat) (pin : Option Nat) : List Byte :=
  let (x, st, ps) := resume.getD (0, 0xFF, 0xFF)
  leBytes 6 (x % 2 ^ 48) ++ leBytes 1 st ++ leBytes 1 ps ++ leBytes 6 (winX % 2 ^ 48) ++ leBytes 1 flags ++
    leBytes 1 (pin.getD 0xFF)

/-- RFLAGS. -/
def Recall.flags (r : Recall) : Nat :=
  (if r.absent then 1 else 0) + (if r.error then 2 else 0) + (if r.loss then 4 else 0) + (if r.fromPin then 8 else 0)

/-- POS of a resume point: 0xFF for BLOCK and INDEX. -/
def formPos (form pos : Nat) : Nat := if 2 ≤ form then 0xFF else pos

/-- An outcome at acceptance. -/
def State.recallEarly (s : State) (r : Nat) (f : Fetched) (status : Nat) (resume : Option (Nat × Nat × Nat))
    (winX : Nat) : State :=
  s.commit r f.sq status f.tag false (recallResult resume winX 0 none) [] none

/-- EVICT_EVT and its count (07 Table 7.9). -/
def State.noteEvict (s : State) : State :=
  { s with hist := { s.hist with evictCount := satInc 0xFFFFFFFF s.hist.evictCount } }.event Reg.hisStat 3

/-! ### Pins (07 R229 to R232) -/

/-- Segments of pin space that are free, reservations deducted. -/
def State.pinFree (s : State) : Nat := 126976 - (s.hist.pins.map Pin.segs).foldl (· + ·) 0

/-- The blocks of a window, oldest first. -/
def windowOf (startX count : Nat) (sts : List Nat) : List (Nat × Nat) :=
  let p0 := startX / 256
  (upto p0 ((startX + count - 1) / 256 + 1 - p0)).flatMap fun p => sts.map fun st => (p, st)

/-- Bytes reserved for a block: LEN of its entry while it stands, 32,832 for a future one (07 R231). -/
def State.pinBytes (s : State) (b : Nat × Nat) : Nat :=
  match s.blockAt b.1 b.2 with
  | .future => 32832
  | .ring e _ => e.len
  | .pinned _ v => v.bytes.length
  | .gone => match s.entryOf b.1 b.2 with
    | some e => e.len
    | none => 0

/-- Segments reserved for a window. -/
def State.pinSegs (s : State) (blks : List (Nat × Nat)) : Nat :=
  ceilDiv ((blks.map s.pinBytes).foldl (· + ·) 0) 4096

/-- The lowest free handle (notes/assumptions/24.md). -/
def State.pinHandle (s : State) : Nat :=
  ((upto 0 255).find? fun h => !s.hist.pins.any fun p => p.handle == h).getD 254

/-- Drops the pin copies that no pin holds. -/
def State.sweepPins (s : State) : State :=
  let kept (k : Nat) : Bool := s.hist.pins.any fun p => p.held.any fun q => blockKey q.1 q.2 == k
  { s with hist := { s.hist with pinBlocks := s.hist.pinBlocks.filter fun b => kept b.1 } }

/-! ### Acceptance (07 R223) -/

/-- The first selected channel at or after `key` for an output form: a channel, or the first one of a station. -/
def nextChan (form : Nat) (chans : List Nat) (key : Nat) : Option Nat :=
  if form < 2 then chans.find? fun c => key ≤ c
  else (stationsOf chans).find? (fun st => key ≤ 16 * st) |>.map (16 * ·)

/-- Where a recall begins: period, channel, crossing. -/
def recallFirst (form : Nat) (chans : List Nat) (startX count : Nat) (resume : Option (Nat × Nat)) :
    Option (Nat × Nat × Nat) :=
  let c0 := (nextChan form chans 0).getD 0
  match resume with
  | some (x, key) =>
    let p := x / 256
    match nextChan form chans key with
    | some c => some (p, c, if c = key then x else max startX (256 * p))
    | none => if 256 * (p + 1) < startX + count then some (p + 1, c0, 256 * (p + 1)) else none
  | none => some (startX / 256, c0, startX)

/-- A recall that passed the checks is in service, with its pin. -/
def State.recallAccepted (s : State) (r : Nat) (f : Fetched) (d : RecallDesc) (chans : List Nat)
    (bufs : List (Nat × Nat)) (startX : Nat) : Recall × State :=
  let blks := windowOf startX d.count (stationsOf chans)
  let h := s.hist
  let handle := s.pinHandle
  let rid := h.nextRid
  let newPin : Pin := ⟨handle, s.pinSegs blks, blks, [], false, rid, false⟩
  let key := if d.form < 2 then 16 * d.resumeStn + d.resumePos else 16 * d.resumeStn
  let at_ := recallFirst d.form chans startX d.count
    (if d.resume then some ((extend48 d.resumeX s.time.xcount).toNat, key) else none)
  let (p, c, x) := at_.getD (0, 0, 0)
  let wait := if d.wait = 0 then s.fld1 Reg.hisFutureWait 23 0 else d.wait
  let rc : Recall := {
    rid := rid, ring := r, sq := f.sq, tag := f.tag, startX := startX, count := d.count, form := d.form
    noOut := d.noOut, chans := chans, waitEnd := s.time.now + wait, bufs := bufs
    pin := if d.pin then some handle else none
    period := p, stn := c / 16, pos := c % 16, x := x
    outDone := d.noOut || at_.isNone
    buf := 0, used := 0, part := [], partAt := 0, sect := none
    absent := false, error := false, loss := false, fromPin := false, anyGood := false, anyError := false
    aborted := false, resumed := false, lost := false, ringOnly := false, lastSeq := none }
  (rc, { s with hist := { h with
      nextRid := rid + 1
      recalls := h.recalls ++ [rc]
      pins := if d.pin then h.pins ++ [newPin] else h.pins } })

/-! ### Output (07 R218 to R222) -/

/-- Replaces a recall. -/
def State.setRecall (s : State) (r : Recall) : State :=
  { s with hist := { s.hist with recalls := s.hist.recalls.map fun q => if q.rid == r.rid then r else q } }

/-- Address of buffer `i`, and its length. -/
def Recall.bufAt (r : Recall) (i : Nat) : Nat × Nat := (r.bufs.drop i).headD (0, 0)

/-- Writes the bytes not yet written to host memory. -/
def State.flushPart (s : State) (r : Recall) : Recall × State :=
  if r.part.isEmpty then (r, s)
  else ({ r with part := [], partAt := r.partAt + r.part.length },
    s.hostWrite 3 ((r.bufAt r.buf).1 + r.partAt) r.part)

/-- The header of a buffer (07 Table 7.4). -/
def bufferHeader (index used : Nat) (last : Bool) : List Byte :=
  leBytes 2 0x7D3F ++ leBytes 1 index ++ leBytes 1 (if last then 1 else 0) ++ leBytes 4 used ++ leBytes 8 0

/-- Closes the buffer in use with its header (07 R218, R221). -/
def State.closeBuffer (s : State) (r : Recall) (last : Bool) : Recall × State :=
  if r.used = 0 then (r, s)
  else
    let (r, s) := s.flushPart r
    (r, s.hostWrite 3 (r.bufAt r.buf).1 (bufferHeader r.buf r.used last))

/-- The header of a section (07 Table 7.5). -/
def State.sectionHeader (s : State) (form : Nat) (q : RecallSect) : List Byte :=
  let d := s.datumAt q.first
  leBytes 2 0x7D3E ++ leBytes 1 (form + 1) ++ leBytes 1 q.flags ++ leBytes 1 q.stn ++ leBytes 1 (formPos form q.pos) ++
    leBytes 2 (q.count / q.per) ++ leBytes 4 q.len ++ leBytes 4 0 ++ leBytes 8 q.first ++ leBytes 8 (datumWord d.1 d.2)

/-- Puts bytes into the buffer in use. -/
def Recall.put (r : Recall) (b : List Byte) : Recall := { r with part := r.part ++ b, used := r.used + b.length }

/-- Room left in the buffer in use, its header reserved. -/
def Recall.room (r : Recall) : Nat := (r.bufAt r.buf).2 - (if r.used = 0 then 16 else r.used)

/-- Begins a buffer: its header keeps its place. -/
def Recall.openBuf (r : Recall) : Recall := if r.used = 0 then { r with used := 16, part := [], partAt := 16 } else r

/-- Data of the section in progress padded to a multiple of 8 (07 Table 7.5 LEN). -/
def Recall.padSect (r : Recall) : Recall :=
  match r.sect with
  | some q =>
    let k := (8 - q.len % 8) % 8
    { r.put (List.replicate k 0) with sect := some { q with len := q.len + k } }
  | none => r

/-- The section in progress ends: its header is written with its final COUNT and LEN (07 R222). -/
def State.endSection (s : State) (r : Recall) : Recall × State :=
  let r := r.padSect
  match r.sect with
  | some q =>
    let (r, s) := s.flushPart r
    ({ r with sect := none }, s.hostWrite 3 ((r.bufAt q.hdrBuf).1 + q.hdrOff) (s.sectionHeader r.form q))
  | none => (r, s)

/-- A section that is broken off keeps the bytes of the crossings that it carries completely (07 R225). -/
def Recall.trimSect (r : Recall) : Recall :=
  match r.sect with
  | some q =>
    let k := min (q.len - q.done) (r.used - 16)
    { r with
      part := r.part.take (r.part.length - k), partAt := r.partAt - (k - r.part.length), used := r.used - k
      sect := some { q with len := q.done } }
  | none => r

/-- The next section in the order of R220. -/
def Recall.advance (r : Recall) : Recall :=
  let key := if r.form < 2 then 16 * r.stn + r.pos + 1 else 16 * r.stn + 16
  match nextChan r.form r.chans key with
  | some c => { r with stn := c / 16, pos := c % 16, x := max r.startX (256 * r.period) }
  | none =>
    let c0 := (nextChan r.form r.chans 0).getD 0
    let x := 256 * (r.period + 1)
    if x < r.startX + r.count then { r with period := r.period + 1, stn := c0 / 16, pos := c0 % 16, x := x }
    else { r with outDone := true }

/-- A pin is complete: what was reserved beyond its copies is freed (07 R231). -/
def State.finishPin (s : State) (p : Pin) : Pin :=
  let n := (p.held.map fun q => match tabGet none s.hist.pinBlocks (blockKey q.1 q.2) with
    | some v => v.bytes.length
    | none => 0).foldl (· + ·) 0
  { p with todo := [], complete := true, segs := ceilDiv n 4096 }

/-- Takes a recall out of service and commits its completion; one that wrote no output closes no packet (07 R222, R227,
10 R294). -/
def State.recallCommit (s : State) (r : Recall) (status : Nat) (resume : Option (Nat × Nat × Nat)) : State :=
  let wrote := r.used != 0
  let t := if r.lastSeq.isSome || !wrote then s else s.closePacket 3 false
  let needs := if wrote then [(3, r.lastSeq.getD (t.openSeq 3))] else []
  let h := t.hist
  let t := { t with hist := { h with
    recalls := h.recalls.filter fun q => q.rid != r.rid
    pins := h.pins.map fun (p : Pin) => if p.rid == r.rid then t.finishPin p else p } }
  let t := if r.absent then t.noteEvict else t
  t.commit r.ring r.sq status r.tag r.resumed (recallResult resume r.startX r.flags r.pin) needs none

/-- The pin of a recall is complete, or there is none. -/
def State.pinDone (s : State) (r : Recall) : Bool :=
  match r.pin with
  | some h => !s.hist.pins.any fun p => p.handle == h && p.rid == r.rid && !p.complete
  | none => true

/-- A recall with every section delivered and its copies done completes (07 R224, R229). -/
def State.recallDone (s : State) (r : Recall) : State :=
  if r.outDone && s.pinDone r && !r.aborted then
    let missed := s.hist.pins.any fun p => p.rid == r.rid && p.missed
    let r := { r with absent := r.absent || missed }
    let status :=
      if r.anyError && !r.anyGood then Status.dataError
      else if r.absent || r.error || r.loss then Status.partial_
      else Status.ok
    s.recallCommit r status none
  else s.setRecall r

/-- Stops a recall before its end: its section and buffer are closed, and the resume point is reported (07 R224, R225). That of a
recall without output is the next block to copy, with POS 0xFF: DESIGN CHOICE (notes/assumptions/113.md). -/
def State.recallStop (s : State) (r : Recall) (status : Nat) : State :=
  let resume : Nat × Nat × Nat := match r.sect with
    | some q => (q.first + q.count / q.per, q.stn, formPos r.form q.pos)
    | none => (r.x, r.stn, formPos r.form r.pos)
  let resume := if r.noOut then
      match s.hist.pins.find? fun p => p.rid == r.rid with
      | some p => match p.todo with
        | (k, st) :: _ => (max r.startX (256 * k), st, 0xFF)
        | [] => resume
      | none => resume
    else resume
  let (r, s) := if r.outDone then (r, s) else
    let (r, s) := s.endSection r.trimSect
    s.closeBuffer r true
  s.recallCommit r status (if r.outDone && !r.noOut then none else some resume)

/-- Makes room for a unit of `n` bytes: the next buffer when it does not fit; none when the chain has no more. A coded
section that is broken off ends its buffer with a PAD (07 R221). -/
def State.roomFor (s : State) (r : Recall) (n : Nat) : Option (Recall × State) :=
  if n ≤ r.room then some (r.openBuf, s)
  else if r.buf + 1 < r.bufs.length then
    let r := match r.sect with
      | some q => if r.form = 1 then
          let k := r.room
          { r.put (List.replicate k 0) with sect := some { q with
              len := q.len + k, done := if q.done = q.len then q.len + k else q.done } }
        else r
      | none => r
    let (r, s) := s.closeBuffer r false
    some ({ r with buf := r.buf + 1, used := 0, part := [], partAt := 0 }.openBuf, s)
  else none

/-- After a unit: long runs of bytes go out, a finished section ends, and so does a finished recall. -/
def State.afterUnit (s : State) (r : Recall) : State :=
  match r.sect with
  | some q =>
    if q.units.isEmpty then
      let (r, s) := s.endSection r
      let r := r.advance
      if r.outDone then
        let (r, s) := s.closeBuffer r true
        let s := s.closePacket 3 false
        s.recallDone { r with lastSeq := some (s.openSeq 3) }
      else s.setRecall r
    else if 4080 ≤ r.part.length then
      let n := r.part.length / 8 * 8
      let t := s.hostWrite 3 ((r.bufAt r.buf).1 + r.partAt) (r.part.take n)
      t.setRecall { r with part := r.part.drop n, partAt := r.partAt + n }
    else s.setRecall r
  | none => s.setRecall r

/-- The last crossing, exclusive, of the section that begins at `r.x`. -/
def Recall.sectEnd (r : Recall) : Nat := min (256 * (r.period + 1)) (r.startX + r.count)

/-- The units of a section's data: RAW crossings, CODED tokens, or a whole block or entry (07 R221). -/
def State.sectUnits (s : State) (r : Recall) (b : BlockRead) : List (List Byte × Nat) × Nat :=
  let a := r.x - 256 * r.period
  let n := r.sectEnd - r.x
  match r.form with
  | 0 =>
    let cs := b.containers r.pos a n
    ((upto 0 n).map fun i => (((cs.drop (4 * i)).take 4).flatMap (leBytes 2), 1), 1)
  | 1 =>
    let (ctl, dist) := s.cmpFor (s.time.xcount / 256)
    ((encodeStream ctl dist (b.containers r.pos a n)).map fun t => (t.bytes, t.n), 4)
  | 2 => match b.got with
    | some (bytes, _) => ([(bytes, n)], 1)
    | none => ([], 1)
  | _ => match s.entryOf r.period r.stn with
    | some e => if b.got.isSome then ([(s.entryBytes r.period r.stn e, n)], 1) else ([], 1)
    | none => ([], 1)

/-- Where a recall finds a block: one whose pin was released meanwhile finds it in the ring region only (07 R229, R232). -/
def State.recallAt (s : State) (r : Recall) : BlockAt :=
  match r.ringOnly, s.blockAt r.period r.stn with
  | true, .pinned _ _ => .gone
  | _, b => b

/-- Reads what the next section needs from the stack (07 R226, R229). -/
def State.sectRead (s : State) (r : Recall) (ecc : EccResult) (row : Nat) : BlockRead × State :=
  if r.form = 3 then
    let t := s.dramRead ecc row
    match s.entryOf r.period r.stn with
    | some e =>
      let here := match s.recallAt r with
        | .ring _ _ | .pinned _ _ => true
        | _ => false
      (⟨if here then some ([], 0) else none, e.error, e.loss, false⟩, t)
    | none => (⟨none, false, false, false⟩, t)
  else s.readAt (s.recallAt r) r.period r.stn (if r.form < 2 then [r.pos] else []) ecc row

/-- Begins the next section and writes its first unit: its header, or the whole of a BLOCK or INDEX section. An INDEX
section reads no block (08 R259). -/
def State.beginSection (s : State) (r : Recall) (ecc : StackRead) (row : Nat) : State :=
  let (b, t) := (s.indexRead r.period r.stn ecc.entry).sectRead r ecc.ecc row
  let (units, per) := t.sectUnits r b
  let whole := 2 ≤ r.form
  let data := if whole then units.flatMap Prod.fst else []
  let need := 32 + data.length
  match t.roomFor r need with
  | none => t.recallStop r Status.outputShort
  | some (q, t) =>
    let flags := (if b.got.isNone then 1 else 0) + (if b.error then 2 else 0) + (if b.loss then 4 else 0) +
      (if b.pinned then 8 else 0)
    let cnt := if whole then (units.map Prod.snd).foldl (· + ·) 0 else 0
    let sect : RecallSect := ⟨q.buf, q.used, r.stn, r.pos, r.x, flags, if whole then [] else units, per, cnt, data.length, data.length⟩
    -- the header's place is left open: it is written at the section's end
    let t := if b.got.isNone then t.event Reg.hisStat 3 else t
    let (q, t) := t.flushPart q
    let q := { q with used := q.used + 32, part := [], partAt := q.partAt + 32 }
    let q := q.put data
    t.afterUnit { q with
      sect := some sect
      absent := q.absent || b.got.isNone, error := q.error || b.error, loss := q.loss || b.loss
      fromPin := q.fromPin || b.pinned
      anyGood := q.anyGood || (r.form != 3 && b.got.isSome && !b.error)
      anyError := q.anyError || (r.form != 3 && b.error) }

/-- Writes the next unit of the section in progress. -/
def State.nextUnit (s : State) (r : Recall) (q : RecallSect) : State :=
  match q.units with
  | (b, n) :: rest =>
    match s.roomFor r b.length with
    | none => s.recallStop r Status.outputShort
    | some (r, s) =>
      let q := r.sect.getD q
      let count := q.count + n
      let len := q.len + b.length
      s.afterUnit { r.put b with sect := some { q with
        units := rest, count := count, len := len, done := if q.count / q.per < count / q.per then len else q.done } }
  | [] => s.afterUnit r

/-- Acceptance of a RECALL in the order of Table 7.6. A recall resumed past its last section, without a pin, is complete at
once (07 R217, R224). -/
def State.acceptRecall (s : State) (p : Option Prep) (r : Nat) (f : Fetched) (t : State) : State :=
  let d := f.recallDesc
  if s.recallBadDesc d p then t.recallEarly r f Status.badDescriptor none 0
  else if State.recallBadAddr d p then t.recallEarly r f Status.badAddress none 0
  else
    match s.recallStart d with
    | none => t.recallEarly r f Status.notFound none 0
    | some x =>
      let chans := d.chans (p.bind (·.mask))
      let sts := stationsOf chans
      if sts.any (s.gone (x / 256)) then
        let q := s.oldestPresent sts
        let c := chans.headD 0
        (t.recallEarly r f Status.evicted (some (256 * q, c / 16, formPos d.form (c % 16))) x).noteEvict
      else if d.pin && (255 ≤ s.hist.pins.length || s.pinFree < s.pinSegs (windowOf x d.count sts)) then
        (t.recallEarly r f Status.noSlot none x).event Reg.hisStat 5
      else
        let bufs := (chainEntries d.chainLen ((p.bind (·.chain)).getD [])).map fun e => (e.1, e.2.1)
        let (q, u) := t.recallAccepted r f d chans bufs x
        if q.outDone then u.recallDone q else u

/-- The reads of the chain list and of the channel mask that a RECALL needs before its acceptance: none when its
descriptor is bad as it stands (07 R215, R216). -/
def State.recallReads (s : State) (r : Nat) (f : Fetched) : List (Nat × Nat × ReadUse) :=
  let d := f.recallDesc
  if !f.headerOk || memNat (s.ring r).marked f.sq || s.recallBadDesc d none then []
  else
    (if d.maskSel && d.maskAddr % 8 == 0 then [(d.maskAddr, 64, ReadUse.mask r f.sq)] else []) ++
      (if 0 < d.chainLen && d.chainAddr % 8 == 0 then [(d.chainAddr, 16 * d.chainLen, ReadUse.chain r f.sq)] else [])

/-- RECALL: the hub issues the reads that the recall at the head of the ring needs, and once they are back accepts it. -/
def execRecall (ring : Nat) (s : State) : Host.Outcome State Fault Refusal :=
  match s.acceptNext ring with
  | some f =>
    let reads := s.recallReads ring f
    match s.prepOf ring f.sq with
    | some p => whenDue s (f.opcode == 0x20 && s.e1Up) (s.acceptRun ring f (s.acceptRecall (some p) ring))
    | none =>
      if reads.isEmpty then whenDue s (f.opcode == 0x20 && s.e1Up) (s.acceptRun ring f (s.acceptRecall none ring))
      else
        let t := reads.foldl (fun t (a, n, u) => t.issueRead a n u)
          { s with ctl := { s.ctl with preps := ⟨ring, f.sq, none, none, false⟩ :: s.ctl.preps } }
        whenDue s (f.opcode == 0x20 && s.ctl.reads.length + reads.length ≤ 64 && s.readFree) t
  | none => .next s

/-! ### Service (07 R234) -/

/-- ACTIVE_MAX as it acts. -/
def State.activeMax (s : State) : Nat := min 16 (s.fld1 Reg.hisCtl 8 4)

/-- A recall whose next section needs a future block (07 R228). -/
def State.recallWaits (s : State) (r : Recall) : Bool :=
  !r.outDone && r.sect.isNone && s.future r.period r.stn

/-- A recall without output whose next copy needs a future block. -/
def State.pinWaits (s : State) (r : Recall) : Bool :=
  r.outDone && match s.hist.pins.find? fun p => p.rid == r.rid with
    | some p => match p.todo with
      | (k, st) :: _ => s.future k st
      | [] => false
    | none => false

/-- The recalls in service, in order of acceptance; one whose next section or next copy needs a future block gives its place
up (07 R228, R234). -/
def State.inService (s : State) : List Recall :=
  (s.hist.recalls.filter fun r => !s.recallWaits r && !s.pinWaits r).take s.activeMax

/-- One unit of a recall. -/
def State.recallUnit (s : State) (r : Recall) (ecc : StackRead) (row : Nat) : State :=
  let s := { s with hist := { s.hist with lastRid := some r.rid } }
  if r.aborted then s.recallStop r (if r.lost then Status.dataError else Status.aborted)
  else match r.sect with
    | some q => s.nextUnit r q
    | none => s.beginSection r ecc row

/-- The next block that the pin of a recall copies (07 R229, R230). -/
def State.copyOf (s : State) (r : Recall) : Option (Pin × Nat × Nat) :=
  match s.hist.pins.find? fun p => p.rid == r.rid && !p.todo.isEmpty with
  | some p => match p.todo with
    | (k, st) :: _ => if s.future k st then none else some (p, k, st)
    | [] => none
  | none => none

/-- A recall in service has a unit to deliver, and the class-3 share takes it. -/
def State.unitReady (s : State) (r : Recall) : Bool :=
  !r.outDone && (s.tryShare 3 0 fun t => t.recallUnit r .clean 0).isSome

/-- The recall whose turn it is, round robin among those in service that have a unit or a copy to make (07 R234, R236).
One that waits for credit keeps its place. -/
def State.nextTurn (s : State) : Option Recall :=
  let rs := (s.inService.filter fun r => !r.aborted && ((s.copyOf r).isSome || s.unitReady r))
  match s.hist.lastRid with
  | some l => (rs.find? fun r => l < r.rid).orElse fun _ => rs.head?
  | none => rs.head?

/-- A requester that ranks ahead of recalls and their copies waits (07 R236 to R238). -/
def State.outranked (s : State) : Bool := s.scrubClaims || s.fragmentWaits

/-- The recall that takes the next unit: an aborted one that stops, else the one whose turn it is (07 R234, 11 R333). -/
def State.nextRecall (s : State) : Option Recall :=
  match s.hist.recalls.find? (·.aborted) with
  | some r => some r
  | none => if s.outranked then none else s.nextTurn.filter fun r => !r.outDone

/-- RECALL_UNIT: the history controller serves one unit of a recall, when the class-3 share takes it. `ecc` and `row` are
what the reads of the section's block and of its index entry find when the unit begins a section. -/
def execRecallUnit (ecc : StackRead) (row : Nat) (s : State) : Host.Outcome State Fault Refusal :=
  match s.nextRecall with
  | some r =>
    match s.tryShare 3 0 fun t => t.recallUnit r ecc row with
    | some t => .next t
    | none => .next s
  | none => .next s

/-- FUTURE_TIMEOUT: the wait limit has passed while the recall still waits (07 R228). -/
def execFutureTimeout (rid : Nat) (s : State) : Host.Outcome State Fault Refusal :=
  match s.hist.recalls.find? fun r => r.rid == rid with
  | some r =>
    match s.tryShare 3 0 fun t => t.recallStop r Status.futureTimeout with
    | some t =>
      whenDue s ((s.recallWaits r || s.pinWaits r) && r.waitEnd ≤ s.time.now && !r.aborted) t
    | none => .next s
  | none => .next s

/-! ### Copies (07 R229 to R231) -/

/-- The copy that is made next: the one of the recall whose turn it is (07 R230, R236). -/
def State.nextCopy (s : State) : Option (Pin × Nat × Nat) :=
  if s.outranked then none else s.nextTurn.bind s.copyOf

/-- Replaces a pin. -/
def State.setPin (s : State) (p : Pin) : State :=
  { s with hist := { s.hist with pins := s.hist.pins.map fun q => if q.handle == p.handle then p else q } }

/-- Copies one block of a pin; a block found evicted counts in HIS_EVICT_COUNT and sets EVICT_EVT as a section does: DESIGN CHOICE
(notes/assumptions/113.md). With the last one, the space not used is freed and the recall may complete. -/
def State.copyBlock (s : State) (p : Pin) (k st : Nat) (ecc : StackRead) (row : Nat) : State :=
  let s := s.indexRead k st ecc.entry
  let src := s.blockAt k st
  let (b, t) := s.readBlock k st [] ecc.ecc row
  let blk : Option Block := match src with
    | .ring _ v | .pinned _ v => some { v with error := b.error }
    | _ => none
  let t := { t with hist := { t.hist with pinBlocks := match blk with
      | some v => tabSet none t.hist.pinBlocks (blockKey k st) (some v)
      | none => t.hist.pinBlocks } }
  let p := { p with
    todo := p.todo.drop 1
    held := if blk.isSome then p.held ++ [(k, st)] else p.held
    missed := p.missed || blk.isNone }
  let p := if p.todo.isEmpty then t.finishPin p else p
  let t := t.setPin p
  match t.hist.recalls.find? fun r => r.rid == p.rid with
  | some r =>
    let t := if blk.isNone then t.event Reg.hisStat 3 else t
    State.recallDone { t with hist := { t.hist with lastRid := some r.rid } } { r with
      absent := r.absent || blk.isNone, error := r.error || b.error, loss := r.loss || b.loss
      anyGood := r.anyGood || (b.got.isSome && !b.error), anyError := r.anyError || b.error }
  | none => t

/-- PIN_COPY: one block is copied to pin space, or is found evicted. -/
def execPinCopy (ecc : StackRead) (row : Nat) (s : State) : Host.Outcome State Fault Refusal :=
  match s.nextCopy with
  | some (p, k, st) => .next (s.copyBlock p k st ecc row)
  | none => .next s

/-- UNPIN: frees the space of a pin (07 R232). -/
def State.unpin (s : State) (r : Nat) (f : Fetched) : State :=
  let h := f.body 0 1
  if !f.zero 1 47 then s.finish r f Status.badDescriptor
  else match s.hist.pins.find? fun p => p.handle == h with
    | none => s.finish r f Status.notFound
    | some p =>
      let t := ({ s with hist := { s.hist with pins := s.hist.pins.filter fun q => q.handle != h } }).sweepPins
      let t := t.finish r f Status.ok
      match t.hist.recalls.find? fun q => q.rid == p.rid with
      | some q => t.recallDone { q with ringOnly := true }
      | none => t

/-- UNPIN. -/
def execUnpin (ring : Nat) (s : State) : Host.Outcome State Fault Refusal :=
  acceptDesc ring (· == 0x21) (fun f t => t.unpin ring f) s

end Sys2Proof.Machine
end

