-- ==== Sys2Proof/Machine/Brix.lean ====
section
/-!
DEFINITION. The Brix ring and the head pair (12): streams and their paths, the fast commands that frames carry (09 R267 to
R270), the transmit side of the ports, the bypass, the roles, mirroring, board operations, closure, the scheduled role swap;
and the loss of a receive lane (09 R284). The received Brix frame is in Machine/Downlink.lean.
-/

namespace Sys2Proof.Machine

open Sys2Proof

/-! ### Streams (12 R337, R348) -/

/-- The latest frame of a stream was marked ACT; a head's own stream by its role. -/
def State.streamAct (s : State) (b : Bool) : Bool :=
  match s.streamIn b with
  | some pt =>
    let h := (s.rx (portRx pt)).rhdr
    h.getLsbD 1 && h.getLsbD 0 == b
  | none => s.brix.role == .active

/-- A stream is up here; a head's own is while it is in the ring. -/
def State.streamHere (s : State) (b : Bool) : Bool :=
  if (s.streamIn b).isNone then s.brix.bypassOpen else s.streamUp b

/-- Only one stream is up (12 R353). -/
def State.singlePath (s : State) : Bool := s.streamHere false != s.streamHere true

/-- The preference that the marks give: head B's stream when it alone is marked ACT (12 R348). -/
def State.preferMarked (s : State) : Bool := s.streamAct true && !s.streamAct false

/-! ### Fast commands (09 R267 to R270, 02 R47; 12 R343) -/

/-- FSEQ and FCHK of character 2, and the test of R268. -/
def fcPasses (comma : Comma) (fc c2 : Byte) (err : Bool) : Bool :=
  comma != .bad && !err && fchk fc (c2.toNat / 16) == c2.toNat % 16

/-! ### Fast commands (09 R267 to R270, 02 R47) -/

/-- A frame whose fast commands do not act: FC_ERR, FC_ERR_EVT (09 R268). -/
def State.fcError (s : State) : State := (s.countFld Reg.lnkFcErr 15 0).event Reg.lnkStat 4

/-- FSEQ of an accepted command frame: lost ones are counted (09 R268). -/
def State.fcSequence (s : State) (fseq : Nat) : State :=
  let lost := match s.fseq with
    | some l => (fseq + 32 - l - 1) % 16
    | none => 0
  let t := if lost = 0 then s else (s.addFld Reg.lnkFcErr 31 16 lost).event Reg.lnkStat 5
  { t with fseq := some fseq }

/-- The length of the orbit before the present one, when the newest change of it came at crossing 0 of the present orbit, number
`orbit` and of `n` crossings. -/
def lenBefore (n orbit : Nat) : List DatumChange → Nat
  | b :: c :: t =>
    if b.len = n then
      if c.len = n then lenBefore n orbit (c :: t) else if b.orbit = orbit ∧ b.cross = 0 then c.len else n
    else n
  | _ => n

/-- The length of the master's orbit that holds a frame of crossing `x`: a frame whose crossing lies past the hub's own was sent in
the orbit before the present one (02 R46, R47; notes/assumptions/46.md). -/
def State.frameOrbit (s : State) (x : Nat) : Nat :=
  if s.time.cross < x then lenBefore s.n s.time.orbit s.time.changes else s.n

/-- Crossings from now to the acting crossing of a frame of master crossing `x`, counted forward from the Datum; 0 when it
has already begun, which beside the present crossing the condition FC_LAT_SHORT alone brings (02 R47, R48;
notes/assumptions/46.md). -/
def State.fcAhead (s : State) (x : Nat) : Int :=
  let n : Int := s.n
  let d := ((x : Int) + s.fcLat + (n - s.frameOrbit x) - s.time.cross) % n
  if n - d ≤ s.fcExcess then 0 else d

/-- Fixes the acting crossing of a command frame that passed, or counts it as one that came too late (02 R47). -/
def State.fcSchedule (s : State) (x : Nat) (fc : Byte) : State :=
  let d := s.fcAhead x
  if d ≤ 0 then s.fcError
  else { s with time := { s.time with fcQueue := s.time.fcQueue ++ [⟨s.time.now + d.toNat, fc⟩] } }

/-- A frame of the stream from which fast commands are taken, with the test of R268 passed. -/
def State.fcTake (s : State) (x : Option Nat) (fc c2 : Byte) : State :=
  if fc = 0 then s
  else
    let t := s.fcSequence (c2.toNat / 16)
    match x with
    | some x => t.fcSchedule x fc
    | none => t

/-- The entry of a stream's frame of master crossing `x`: its characters 1 and 2, when the frame may be acted on. -/
def RxLaneState.fcOf (r : RxLaneState) (x : Nat) : Option (Option (Byte × Byte)) :=
  (r.fcs.find? fun p => p.1 == x).map Prod.snd

/-- A command frame of the ring acts, unless the other copy of it has: the two come at most 64 crossings apart, and frames of
one master crossing of two orbits 1024 or more (02 R46, 12 R343). -/
def State.ringTake (s : State) (x : Nat) (c : Byte × Byte) : State :=
  if c.1 = 0 ∨ (s.brix.taken.any fun p => p.1 == x && s.time.now < p.2 + 512) then s
  else { s with brix := { s.brix with taken := ((x, s.time.now) :: s.brix.taken).take 64 } }.fcTake (some x) c.1 c.2

/-- The frames of the other stream that wait for the preferred copy act when the preferred lane goes down, oldest first
(12 R343, R353). -/
def State.waitingFcs (s : State) (lost : RxLaneState) : State :=
  match s.streamIn (!s.brix.preferB) with
  | some pt =>
    if s.refSel == 2 && s.portUsable pt && !lost.fcs.isEmpty then
      let newer := (s.rx (portRx pt)).fcs.takeWhile fun p => (lost.fcOf p.1).isNone
      newer.reverse.foldl (fun t (x, c) =>
        match c with
        | some c => t.ringTake x c
        | none => t) s
    else s
  | none => s

/-! ### Loss of a receive lane (09 R284) -/

/-- Notes evidence for the orbit's digest (12 R359). -/
def State.evidence (s : State) (b : Nat) : State :=
  { s with brix := { s.brix with evidence := s.brix.evidence ||| BitVec.ofNat 8 (2 ^ b) } }

/-- The transmit side of a port. -/
def State.portTx (s : State) : Port → PortTx
  | .p => s.brix.txP
  | .q => s.brix.txQ

/-- Replaces the transmit side of a port. -/
def State.setPortTx (s : State) (pt : Port) (v : PortTx) : State :=
  { s with brix := match pt with
    | .p => { s.brix with txP := v }
    | .q => { s.brix with txQ := v } }

/-- A ring message for the other head: MIRROR, CLOSURE or ROLE (12 Table 12.2). -/
def forPartner (m : List Byte) : Bool := match m.head? with
  | some ty => 0x44 ≤ ty.toNat && ty.toNat ≤ 0x46
  | none => false

/-- A hub that forwards the streams: in the ring, and no head. -/
def State.forwards (s : State) : Bool := s.brix.bypassOpen && !s.isHead

/-- The other port. -/
def otherPort : Port → Port
  | .p => .q
  | .q => .p

/-- Characters of a packet go into the 512-byte buffer of the port that they pass out of, while its lane is UP: from the
packet's opening on. As much leaves it in a crossing as comes, so that what an own packet in progress holds back is all it
ever holds (12 R341). -/
def State.passChars (s : State) (inPort : Port) (l : List LChar) : State :=
  let out := otherPort inPort
  let p := s.portTx out
  if s.laneUp (portLane out) && (l.head? == some k27_7 || p.midPass || !p.pass.isEmpty) then
    s.setPortTx out { p with pass := p.pass ++ l }
  else s

/-- A control message is discarded whole: counted in MSG_DROP, MSG_ERR_EVT (11 R311). -/
def State.dropMessage (s : State) : State :=
  let t := s.event Reg.ctlStat 1
  { t with ctl := { t.ctl with msgDrop := satInc 0xFFFF t.ctl.msgDrop } }

/-- A packet of the slots that R311 does not admit is discarded. One that this hub only passes on is not its own to drop, but
for the types that every hub reads (12 R341, Table 12.2). -/
def State.dropPacket (s : State) (passed : Bool) (l : List Byte) : State :=
  if !passed || l.head? == some 0x42 || l.head? == some 0x43 then s.dropMessage else s

/-- Whether a hub has passed on what came of a packet: before its fifth byte a forwarding hub does not know whom it names
(12 R341). -/
def State.passesOn (s : State) (r : RxLaneState) : Bool := r.slotPass == some true || (r.slotPass.isNone && s.forwards)

/-- The packet in progress on a port ends badly: onward it ends with K30.7, and here it is discarded (12 R341). -/
def State.cutSlot (s : State) (pt : Port) : State :=
  let r := s.rx (portRx pt)
  match r.slotBuf with
  | none => s
  | some l =>
    let t := s.setRx (portRx pt) { r with slotBuf := none, slotPass := none }
    let t := if r.slotPass = some true then t.passChars pt [k30_7] else t
    t.dropPacket (s.passesOn r) l

/-- The port of a receive lane. -/
def rxPort : RxLane → Option Port
  | .brixP => some .p
  | .brixQ => some .q
  | .dla | .dlb => none

/-- The transmit lane of a port in the ring trains anew with the port's receive lane: the two carry each other's training
sequences (09 R279, 12 R353; notes/assumptions/96.md). -/
def State.retrainPort (s : State) (pt : Option Port) : State :=
  match pt with
  | some pt =>
    if s.brix.bypassOpen && s.laneUp (portLane pt) then s.laneDeclaredDown (portLane pt) true else s
  | none => s

/-- A downlink or Brix receive lane is declared down and returns to `st`: the reference, and with it the hub's own time,
follows (09 R284; 02 R62, R63; 12 R348). -/
def State.rxDown (s : State) (l : RxLane) (st : RxStat) : State :=
  let r := s.rx l
  let wasUp := r.stat == .up
  let lostStream := (rxPort l).isSome && s.streamIn s.brix.preferB == rxPort l && s.refSel == 2
  let t := match rxPort l with
    | some pt => s.cutSlot pt
    | none => s
  let t := t.setRx l { t.rx l with
    stat := st, goodRun := 0, badRun := 0, errs := [], masterX := none, hops := [], fcs := [], tapReq := false
    actRun := 0 }
  if wasUp then
    let t := t.event Reg.lnkStat 6
    let t := if (rxPort l).isNone then t.evidence 0 else t
    let t := if lostStream then (t.event Reg.brxStat 19).waitingFcs r else t
    (t.retrainPort (rxPort l)).refUpdate.tryTimeEnd
  else t

/-! ### The transmit side of a port (12 R339 to R342) -/

/-- The next character of the slots: an own packet in progress goes on; a passing packet goes before an own one, which does
not begin while the first bytes of one that may pass are `held`; 0x00 without a packet (12 R341). -/
def PortTx.slot (held : Bool) (p : PortTx) : LChar × PortTx :=
  match p.cur with
  | c :: t => (c, { p with cur := t })
  | [] =>
    match p.pass with
    | c :: t => (c, { p with pass := t, midPass := c != k29_7 && c != k30_7 })
    | [] =>
      if p.midPass || held then (.d 0, p)
      else match p.own with
        | m :: t => (k27_7, { p with cur := dataChars m ++ [k29_7], own := t })
        | [] => (.d 0, p)

/-- The next `n` characters of the slots. -/
def PortTx.slots (held : Bool) : Nat → PortTx → List LChar × PortTx
  | 0, p => ([], p)
  | n + 1, p =>
    let (c, q) := p.slot held
    let (l, r) := PortTx.slots held n q
    (c :: l, r)

/-- A packet that comes in for a port's transmit lane and may pass has bytes that are still held (12 R341). -/
def State.slotHeld (s : State) (pt : Port) : Bool :=
  let r := s.rx (portRx (otherPort pt))
  s.forwards && r.slotBuf.isSome && r.slotPass != some false

/-- A frame of a port's transmit lane: characters 0 to 3 and six slots, sent while the lane is UP (12 Table 12.1). -/
def State.sendBrixFrame (s : State) (pt : Port) (x : Option Nat) (fc c2 rhdr : Byte) : State :=
  let p := { s.portTx pt with sentAt := some s.time.now, x := x }
  if s.laneUp (portLane pt) then
    let (slots, q) := p.slots (s.slotHeld pt) 6
    (s.setPortTx pt q).sendLane (portLane pt)
      (.brixFrame ([if x = some 0 then k28_1 else k28_5, .d fc, .d c2, .d rhdr] ++ slots))
  else s.setPortTx pt p

/-- A ring message in the layout of Table 11.1. -/
def ringBytes (type : Nat) (body : List Byte) : List Byte :=
  let h := leBytes 1 type ++ leBytes 2 body.length
  let m := h ++ [crc8 h] ++ body
  m ++ leBytes 2 (crc16 m).toNat

/-- Hands a message to the slots of a port; with the bypass closed the transmitters are disconnected and nothing is sent
(12 R341, R350). -/
def State.ringSend (s : State) (pt : Port) (type : Nat) (body : List Byte) : State :=
  if s.brix.bypassOpen then
    let p := s.portTx pt
    (s.setPortTx pt { p with own := p.own ++ [ringBytes type body] }).emit (.brixMessage (some pt) type body)
  else s

/-- A message of each orbit, which only a lane that is UP takes (notes/assumptions/88.md). -/
def State.ringSendUp (s : State) (pt : Port) (type : Nat) (body : List Byte) : State :=
  if s.laneUp (portLane pt) then s.ringSend pt type body else s

/-- Character 2 of a frame without a command: the FSEQ of the last command frame, and its check (09 R267). -/
def State.idleC2 (s : State) : Byte :=
  let q := s.fseq.getD 0
  BitVec.ofNat 8 (16 * q + fchk 0 q)

/-- The departure of a K28.1 on a port is stamped (12 R346). -/
def State.stampT1 (s : State) (pt : Port) (t1 : Nat) : State :=
  { s with brix := match pt with
    | .p => { s.brix with t1P := t1 }
    | .q => { s.brix with t1Q := t1 } }

/-- The mirror link is UP: both lanes of its port are (12 R342, Table 12.9). -/
def State.mirrorUp (s : State) : Bool := s.isHead && s.rxUp (portRx s.mirrorPort) && s.laneUp (portLane s.mirrorPort)

/-- The messages that wait for a mirror link that is not UP go into the head's own stream (12 R342). -/
def State.divertMirror (s : State) : State :=
  if s.mirrorUp then s
  else
    let m := s.portTx s.mirrorPort
    let o := s.portTx s.streamOut
    (s.setPortTx s.mirrorPort { m with own := m.own.filter fun l => !forPartner l }).setPortTx s.streamOut
      { o with own := o.own ++ m.own.filter forPartner }

/-- The departure of a K28.1 that leaves with the present crossing, moved from the boundary to the ball of a port by TXDLY
(12 R346, Table 12.7). -/
def State.ownT1 (s : State) (pt : Port) : Nat :=
  let d := (s.reg (match pt with | .p => Reg.brxDlyP | .q => Reg.brxDlyQ)).toNat / 65536
  if s.t16 ≤ 0 then s.stamp 0 else toTwos 64 ((s.stamp 0 : Int) + d * 2 ^ 24 / s.t16)

/-- The frame of a crossing leaves a head in its own stream and on the mirror link, and enters the digest (12 R339, R340,
R359). -/
def State.headFrame (s : State) (x : Option Nat) (fc c2 : Byte) (ok : Bool) (t1 : Port → Nat) : State :=
  let s := s.divertMirror
  let rhdr : Byte := BitVec.ofNat 8 (s.position + (if s.brix.role = .active then 2 else 0) + (if ok then 4 else 0) + 8)
  let t := (s.sendBrixFrame s.streamOut x fc c2 rhdr).sendBrixFrame s.mirrorPort x fc c2 rhdr
  let b := t.brix
  { t with brix := { b with
      t1P := if x = some 0 then t1 .p else b.t1P
      t1Q := if x = some 0 then t1 .q else b.t1Q
      digestIn := b.digestIn ++ [(s.time.orbit, fc, rhdr &&& 0xC5#8)] } }

/-- The crossing that follows the one a port's last frame carried, by the hub's own count of the stream (12 R340). -/
def State.nextX (s : State) (pt : Port) : Option Nat :=
  match (s.portTx pt).x with
  | some x => if s.n = 0 then none else some ((x + 1) % s.n)
  | none => none

/-- A crossing in which no frame has come to be sent on: every lane that is UP carries one all the same, without a command
and with DL_OK = 0 (12 R339, R356; notes/assumptions/88.md). -/
def State.ownFrames (s : State) : State :=
  if !s.brix.bypassOpen then s
  else if s.isHead then
    if (s.portTx s.streamOut).sentAt = some s.time.now then s
    else s.headFrame (s.nextX s.streamOut) 0 s.idleC2 false s.ownT1
  else [Port.p, Port.q].foldl (fun t pt =>
    if (t.portTx pt).sentAt = some t.time.now then t
    else
      let u := if t.nextX pt = some 0 then t.stampT1 pt (t.ownT1 pt) else t
      u.sendBrixFrame pt (u.nextX pt) 0 u.idleC2 (match pt with | .p => 0x09 | .q => 0x08)) s

/-! ### The bypass (12 R350 to R353) -/

/-- The receivers of a bypassed hub listen from the PLL lock on (12 R351, 16 Table 16.5). -/
def State.listening (s : State) : Bool := s.power.pllLocked || s.time.sampling

/-- STATE of BRX_STAT: 0 BYPASSED, 1 LISTEN, 2 IN_RING, 3 LEAVING (12 Table 12.9). -/
def State.brixState (s : State) : Nat :=
  if s.brix.bypassOpen then (if s.brix.leaving then 3 else 2)
  else if s.listening then 1
  else 0

/-- The Brix lanes of this hub are on a changed span: receive lanes with a signal lose their lock, and the transmit lanes,
declared down when UP, train or stop (12 R353; 09 R279, R284). -/
def State.spanChanged (s : State) : State :=
  let down (t : State) (l : RxLane) : State := if (t.rx l).stat == .los then t else t.rxDown l .acquire
  [32, 33].foldl (fun t n =>
    let t := if t.laneUp n then t.laneDeclaredDown n true else t
    if t.brix.bypassOpen then t.acquire n 0 else t.setLane n { t.lane n with st := .off, step := 0 })
    (down (down s .brixP) .brixQ)

/-- The bypass opens: a head starts as STANDBY (12 R352, R355, R364). -/
def State.openBypass (s : State) : State :=
  let b := s.brix
  let t := { s with brix := { b with
    bypassOpen := true, leaving := false
    role := if s.isHead then .standby else .none
    sync := false, syncRun := 0, baseApplied := false, closeFrom := none } }
  ((t.event Reg.brxStat 18).spanChanged).tryJoinEnd

/-- The bypass closes: the hub leaves the ring and holds no role (12 R350, R364). -/
def State.closeBypass (s : State) : State :=
  let b := s.brix
  let t := { s with brix := { b with
    bypassOpen := false, leaving := false, leaveOrbit := none, role := .none, sync := false, syncRun := 0, baseApplied := false
    closeFrom := none, swapAtGap := false, splitAtGap := false, mirrorOut := [], heldIn := [], txP := .init, txQ := .init } }
  (t.event Reg.brxStat 18).spanChanged

/-- The latest RING_MAP, when it came in the present orbit. -/
def State.mapNow (s : State) : Option (List Byte) :=
  match s.brix.ringMap with
  | some (b, o) => if o = s.time.orbit then some b else none
  | none => none

/-- The RING_MAP of this orbit, of a head that it gives as active, names this hub's position for admission. -/
def State.admitted (s : State) : Bool :=
  match s.mapNow with
  | some b => byteAt b 0 < 2 && Nat.testBit (byteAt b 1) (byteAt b 0) && 128 ≤ byteAt b 4 && byteAt b 4 % 8 == s.position
  | none => false

/-- A head has received no RING_MAP in the last orbit (12 R352). -/
def State.noMap (s : State) : Bool :=
  s.isHead && match s.brix.ringMap with
    | some (_, o) => 1 < orbitDiff s.time.orbit o
    | none => true

/-- BYPASS_OPEN: a ready listening hub that is named opens its bypass at crossing N−G (12 R352); during EXTEST it stays closed
(16 R461). -/
def execBypassOpen (s : State) : Host.Outcome State Fault Refusal :=
  whenDue s (s.atGap && s.scan != .extest && s.brixState == 1 && s.ringMember && (s.power.phase == .join || s.power.phase == .run) &&
    (s.admitted || s.noMap)) s.openBypass

/-- A hub in the ring leaves it at the next crossing N−G (12 R350). -/
def State.leave (s : State) (v : Word) : State :=
  if bit v 0 && s.brix.bypassOpen then { s with brix := { s.brix with leaving := true } } else s

/-- A RING_MAP has named this hub's position for release in the present orbit (12 Table 12.4). -/
def State.releasedNow (s : State) : Bool := s.brix.leaveOrbit == some s.time.orbit

/-! ### Status, map and links -/

/-- A position is present: its HUB_STATUS has arrived within the last 4 orbits; this hub is while its bypass is open
(12 R358). -/
def State.posPresent (s : State) (p : Nat) : Bool :=
  if p = s.position then s.brix.bypassOpen
  else match tabGet none (s.brix.status.map fun (k, v) => (k, some v)) p with
    | some (_, o) => orbitDiff s.time.orbit o ≤ 4
    | none => false

/-- The mask of the positions that `f` holds of. -/
def State.posMask (s : State) (f : Nat → Bool) : Nat :=
  ((upto 0 s.ringN).map fun p => if f p then 2 ^ p else 0).foldl (· + ·) 0

/-- A position in the ring that is not present is bypassed (notes/assumptions/26.md). -/
def State.posBypassed (s : State) (p : Nat) : Bool := p < s.ringN && !s.posPresent p

/-- LINK as a position's status reports it on port P (`q` false) or Q. -/
def State.linkAt (s : State) (p : Nat) (q : Bool) : Int :=
  if p = s.position then (if q then s.brix.linkQ else s.brix.linkP)
  else match tabGet none (s.brix.status.map fun (k, v) => (k, some v)) p with
    | some (b, _) => sext 32 (if q then le b 8 4 else le b 4 4)
    | none => 0

/-- The positions whose receiving links a stream crosses to reach this hub, this hub last: head A's stream counts down
from RING_N, head B's up from 1 (12 R337, R347). -/
def State.pathPositions (s : State) (b : Bool) : List Nat :=
  let n := s.ringN
  let me := s.position
  if b then (if me = 0 then upto 2 (n - 2) ++ [0] else upto 2 (me - 1))
  else (upto (max me 1) (n - max me 1)).reverse

/-- The next positions downstream of this hub on a stream, in order (12 R337, R351). -/
def State.downPositions (s : State) (b : Bool) : List Nat :=
  let me := s.position
  if b then upto (me + 1) (s.ringN - me - 1) ++ upto 0 me
  else (upto 0 me).reverse ++ (upto (me + 1) (s.ringN - me - 1)).reverse

/-- PATH of a stream, 1/16 ps, when it can be used: HOPS has agreed in the two latest K28.1 frames, and every link on the
path has been measured or reported within 4 orbits (12 R347, R351). -/
def State.pathOf (s : State) (b : Bool) : Option Int :=
  match s.streamIn b with
  | none => none
  | some pt =>
    match (s.rx (portRx pt)).hops with
    | h :: h' :: _ =>
      let ups := (s.pathPositions b).filter fun p => p != s.position && s.posPresent p
      let sum := (ups.map fun p => s.linkAt p b).foldl (· + ·) 0
      let base : Int := (4 + 2 * ((h : Int) - 1)) * s.t16 + sum + s.rxDly pt
      if h = 0 ∨ h ≠ h' ∨ ups.length + 1 ≠ h then none
      else if s.brix.bypassOpen then (if s.linkFresh pt then some (base + s.linkAt s.position b) else none)
      else
        -- the tap: half the span LINK that the downstream hub reports
        match (s.downPositions b).find? s.posPresent with
        | some p => some (base + s.linkAt p b / 2)
        | none => none
    | _ => none

/-- Keeps the reported paths current; a longer one can leave TIME_FC_LAT too short (02 R48). -/
def State.updatePaths (s : State) : State :=
  let a := s.pathOf false
  let b := s.pathOf true
  let x := s.brix
  let t := { s with brix := { x with
    pathA := match a with | some v => toTwos 24 v | none => x.pathA
    pathAValid := a.isSome
    pathB := match b with | some v => toTwos 24 v | none => x.pathB
    pathBValid := b.isSome } }
  if t.ringDelay = s.ringDelay then t else t.noteShort

/-- PATH of the stream in use. -/
def State.pathInUse (s : State) : Int := (s.pathOf s.usingB).getD 0

/-- A stamp at its ball: RXDLY taken off an arrival (12 R346). -/
def State.atBall (s : State) (pt : Port) (stamp : Nat) : Nat :=
  if s.t16 ≤ 0 then stamp
  else (stamp + 2 ^ 64 - (s.rxDly pt * 2 ^ 24 / s.t16).toNat) % 2 ^ 64

/-- The stamp of the last K28.1 that arrived on a port, at its ball. -/
def State.arrivalStamp (s : State) (pt : Port) : Option Nat :=
  match (s.rx (portRx pt)).k281 with
  | some (at_, frac) =>
    let back := (s.time.now - at_) * 2 ^ 24
    some (s.atBall pt ((s.stamp frac + 2 ^ 64 - back) % 2 ^ 64))
  | none => none

/-- What a HOP_REPORT body does at a port (12 R346). A listening hub has no link of its own, and the one it hears is another
hub's. -/
def State.hopReport (s : State) (pt : Port) (b : List Byte) : State :=
  match if s.brix.bypassOpen then s.arrivalStamp pt else none with
  | some t4 =>
    let t1 := match pt with | .p => s.brix.t1P | .q => s.brix.t1Q
    let t2 := le b 8 8
    let t3 := le b 16 8
    let asym : Int := sext 16 (s.reg (match pt with | .p => Reg.brxAsymP | .q => Reg.brxAsymQ)).toNat
    let link := roundHalfIn (s.stampDiff t2 t1 + s.stampDiff t4 t3 + asym) 2
    let t := { s with brix := match pt with
      | .p => { s.brix with linkP := link, linkPAt := some s.time.orbit }
      | .q => { s.brix with linkQ := link, linkQAt := some s.time.orbit } }
    t.updatePaths
  | none => s

/-- HOP_REPORT. -/
def execHopReport (port : Port) (body : List Byte) (s : State) : Host.Outcome State Fault Refusal :=
  .next (s.hopReport port body)

/-- The orbit in which a RING_MAP asks this hub to leave. -/
def State.releaseIn (s : State) (b : List Byte) : Option Nat :=
  if 128 ≤ byteAt b 5 && byteAt b 5 % 8 == s.position then some (le b 8 8) else s.brix.leaveOrbit

/-- What a RING_MAP body does; a change of the bypassed positions sets TOPO_EVT (12 R352, Table 12.9). -/
def State.takeMap (s : State) (b : List Byte) : State :=
  let changed := match s.brix.ringMap with
    | some (o, _) => byteAt o 3 != byteAt b 3
    | none => false
  let t := { s with brix := { s.brix with ringMap := some (b, s.time.orbit), leaveOrbit := s.releaseIn b } }
  if changed then t.event Reg.brxStat 18 else t

/-- The present RING_MAP of the active head itself: kept like a received one, so that BRX_MAP and TOPO_EVT follow it
(12 R365). -/
def State.keepMap (s : State) (b : List Byte) : State :=
  let lo := s.brix.leaveOrbit
  let t := s.takeMap b
  { t with brix := { t.brix with leaveOrbit := lo } }

/-- RING_MAP. -/
def execRingMap (_port : Port) (body : List Byte) (s : State) : Host.Outcome State Fault Refusal := .next (s.takeMap body)

/-- The position that the active head names for admission, in turn (12 R352). -/
def State.nextAdmit (s : State) : Option Nat :=
  let auto := bit (s.reg Reg.brxCfg) 14
  let n := s.ringN
  ((upto 1 n).map fun i => (s.brix.admitNext + i) % n).find? fun p =>
    s.posBypassed p && (auto || memNat s.brix.admits p)

/-- The RING_MAP body that the active head sends (12 R358). -/
def State.mapBody (s : State) : List Byte :=
  let a := s.position == 0
  let rel := match s.brix.releases with
    | r :: _ => (128 + r.position, r.orbit)
    | [] => (0, 0)
  let partnerSync := 4 ≤ s.brix.syncRun
  leBytes 1 s.position ++
    leBytes 1 ((if a then 1 else 2) + (if partnerSync then (if a then 8 else 4) else 0)) ++
    leBytes 1 (s.posMask s.posPresent) ++ leBytes 1 (s.posMask s.posBypassed) ++
    leBytes 1 (match s.nextAdmit with | some p => 128 + p | none => 0) ++ leBytes 1 rel.1 ++ leBytes 2 0 ++ leBytes 8 rel.2

/-- The HUB_STATUS body of this hub (12 R358). -/
def State.statusBody (s : State) : List Byte :=
  leBytes 1 s.position ++ leBytes 1 s.brixState ++
    leBytes 1 ((if s.usingB then 1 else 0) + (if s.singlePath then 2 else 0) + (if s.servoState = 2 then 4 else 0)) ++
    leBytes 1 0 ++ leBytes 4 (toTwos 32 s.brix.linkP) ++ leBytes 4 (toTwos 32 s.brix.linkQ) ++
    leBytes 4 s.brix.fcDiff

/-- The HOP_REPORT body for the neighbour on a port (12 R346). -/
def State.hopBody (s : State) (pt : Port) : List Byte :=
  let (k, t3) := match pt with
    | .p => (0, s.brix.t1P)
    | .q => (1, s.brix.t1Q)
  leBytes 1 k ++ leBytes 7 0 ++ leBytes 8 ((s.arrivalStamp pt).getD 0) ++ leBytes 8 t3

/-! ### Messages between the heads (12 R342, R355 to R358) -/

/-- The role of a head changes. -/
def State.setRole (s : State) (r : Role) : State :=
  if s.brix.role = r then s
  else { s with brix := { s.brix with role := r, blameRun := 0, sync := false } }.event Reg.brxStat 16

/-- The other role. -/
def Role.other : Role → Role
  | .active => .standby
  | .standby => .active
  | .none => .none

/-- Sends a message to the other head: on the mirror link, or in the head's own stream (12 R342). -/
def State.toPartner (s : State) (type : Nat) (body : List Byte) : State :=
  s.ringSend (if s.mirrorUp then s.mirrorPort else s.streamOut) type body

/-- A MIRROR body in the layout that the model gives the firmware's own contents (12 R357; notes/assumptions/25.md): kind,
sub-kind, the mirror version, the orbit, and data. Kinds: 1 change, 2 board operation passed on, 3 base copy asked for,
4 piece of a base copy, 7 completion for the other head's ring, 8 version without a change. -/
def mirrorBody (kind sub ver orbit : Nat) (data : List Byte) : List Byte :=
  leBytes 1 kind ++ leBytes 1 sub ++ leBytes 2 0 ++ leBytes 4 ver ++ leBytes 8 orbit ++ data

/-- Sends a MIRROR message, behind those that wait; it waits during a restart of E7, and until the packets that it reports
are delivered (01 R28, 10 R304). -/
def State.mirrorSend (s : State) (needs : List (Nat × Nat)) (body : List Byte) : State :=
  if s.engineUp 7 && s.delivered needs && s.brix.mirrorOut.isEmpty then s.toPartner 0x44 body
  else { s with brix := { s.brix with mirrorOut := s.brix.mirrorOut ++ [(needs, body)] } }

/-- Sends the MIRROR messages that wait, in order, as far as they may go. -/
def State.flushMirror (s : State) : State :=
  if s.engineUp 7 then
    let l := s.brix.mirrorOut
    l.foldl (fun t (n, b) => t.mirrorSend n b) { s with brix := { s.brix with mirrorOut := [] } }
  else s

/-- The active head mirrors a change of the board state under the next version (12 R357). -/
def State.mirrorChange (s : State) (sub : Nat) (data : List Byte) : State :=
  if s.brix.role = .active then
    let v := (s.brix.mirrorVer + 1) % 2 ^ 32
    { s with brix := { s.brix with
      mirrorVer := v
      verLog := ((s.time.orbit, v) :: s.brix.verLog).take 1024 } }.mirrorSend [] (mirrorBody 1 sub v s.time.orbit data)
  else s

/-- The admit cycle as mirrored. -/
def State.admitData (s : State) : List Byte :=
  leBytes 1 ((s.brix.admits.map fun p => 2 ^ (p % 8)).foldl (· + ·) 0) ++ leBytes 1 s.brix.admitNext

/-- What a HUB_STATUS body does: the latest one of each position is kept, and a position that is in the ring leaves the
admit cycle, which the active head mirrors (12 R357, R358). -/
def State.hubStatus (s : State) (b : List Byte) : State :=
  let p := byteAt b 0
  if p < 8 then
    let x := s.brix
    let t := ({ s with brix := { x with
      status := tabIns x.status p (b, s.time.orbit)
      admits := delNat x.admits p } }).updatePaths
    if memNat x.admits p then t.mirrorChange 1 t.admitData else t
  else s

/-- HUB_STATUS. -/
def execHubStatus (_port : Port) (body : List Byte) (s : State) : Host.Outcome State Fault Refusal :=
  .next (s.hubStatus body)

/-- A pending release as mirrored. -/
def Release.bytes (r : Release) : List Byte := leBytes 1 r.position ++ leBytes 3 0 ++ leBytes 4 r.bseq ++ leBytes 8 r.orbit

/-- The outcome of a board operation, 16 bytes (12 R359). -/
def BoardOp.bytes (o : BoardOp) : List Byte := leBytes 4 o.bseq ++ [o.status] ++ o.result ++ [0]

/-- An arm as mirrored. -/
def Arm.bytes (a : Arm) : List Byte := leBytes 1 a.newActive ++ leBytes 3 0 ++ leBytes 4 a.bseq ++ leBytes 8 a.target.toNat

/-- BRX_CFG and BRX_FAULT as mirrored. -/
def State.settingData (s : State) : List Byte :=
  leBytes 4 (s.reg Reg.brxCfg).toNat ++ leBytes 4 (s.reg Reg.brxFault).toNat

/-- A list in pieces of at most `n`, with `fuel` pieces at most. -/
def chunksOf {α : Type} (n : Nat) : Nat → List α → List (List α)
  | 0, _ => []
  | fuel + 1, l => if l.isEmpty then [] else l.take n :: chunksOf n fuel (l.drop n)

/-- The pieces of a base copy: sub-kind and data, the last one of sub-kind 15. The first ones take away the releases and arms
that the standby holds (12 R357). -/
def State.basePieces (s : State) : List (Nat × List Byte) :=
  [(6, []), (7, [])] ++ (match s.brix.ringMap with | some (b, _) => [(0, b)] | none => []) ++
    [(1, s.admitData), (5, s.settingData)] ++ (s.brix.releases.map fun r => (2, r.bytes)) ++
    (s.brix.arms.map fun a => (4, a.bytes)) ++
    ((chunksOf 14 5 s.brix.ops.reverse).map fun l => (3, l.flatMap BoardOp.bytes)) ++ [(15, [])]

/-- The active head sends a base copy. -/
def State.sendBase (s : State) : State :=
  s.basePieces.foldl (fun t (k, d) => t.mirrorSend [] (mirrorBody 4 k t.brix.mirrorVer t.time.orbit d)) s

/-- A standby asks for a base copy (12 R357, R364). -/
def State.askBase (s : State) : State :=
  { s with brix := { s.brix with wantBase := true } }.mirrorSend [] (mirrorBody 3 0 s.brix.mirrorVer s.time.orbit [])

/-! ### Board operations (12 R358) -/

/-- The outcome of a board operation at this head, under its present role. -/
def State.outcomeOp (s : State) (bseq status : Nat) (rest : List Byte) : BoardOp :=
  ⟨bseq, BitVec.ofNat 8 status, (rest ++ List.replicate 10 0).take 10, if s.brix.role = .active then 1 else 2⟩

/-- The result of a board operation: the writing head, and its role at the commit (12 R358). -/
def State.boardResult (s : State) (o : BoardOp) : List Byte :=
  leBytes 4 o.bseq ++ leBytes 1 s.position ++ leBytes 1 o.role ++ o.result

/-- A completion of this head for a ring of the other head. -/
def State.partnerCompletion (s : State) (ring sq : Nat) (tag : Word) (o : BoardOp) (needs : List (Nat × Nat)) : State :=
  s.mirrorSend needs (mirrorBody 7 0 0 s.time.orbit
    (leBytes 1 ring ++ [o.status] ++ leBytes 2 sq ++ leBytes 4 tag.toNat ++ s.boardResult o))

/-- This head's completion of a board operation, on the ring that it came from (12 R358). -/
def State.boardDone (s : State) (w : BoardWait) (o : BoardOp) (needs : List (Nat × Nat)) : State :=
  if w.remote then s.partnerCompletion w.ring w.sq w.tag o needs
  else s.commit w.ring w.sq o.status.toNat w.tag w.resumed (s.boardResult o) needs none

/-- Where a board operation came from, as mirrored beside its outcome: nothing when the other head has it of its own. -/
def originData (w : Option BoardWait) : List Byte :=
  match w with
  | some w => if w.remote then leBytes 8 0 else leBytes 1 1 ++ leBytes 1 w.ring ++ leBytes 2 w.sq ++ leBytes 4 w.tag.toNat
  | none => leBytes 8 0

/-- The outcome of a board operation is kept among the last 64, and enters the digest of its orbit. -/
def State.keepOp (s : State) (orbit : Nat) (op : BoardOp) : State :=
  { s with brix := { s.brix with
    ops := (op :: s.brix.ops).take 64
    opsIn := s.brix.opsIn ++ [(orbit, op.bytes)] } }

/-- The active head commits a board operation once: its outcome is kept and mirrored, and it completes on the ring that it
came from (12 R358). -/
def State.boardCommit (s : State) (w : Option BoardWait) (bseq status : Nat) (rest : List Byte)
    (needs : List (Nat × Nat)) : State :=
  let op := s.outcomeOp bseq status rest
  let t := (s.keepOp s.time.orbit op).mirrorChange 3 (op.bytes ++ originData w)
  match w with
  | some w => t.boardDone w op needs
  | none => t

/-- Bytes of a board operation's body from `a` on are all 0. -/
def bodyZero (b : List Byte) (a n : Nat) : Bool := allZero (bytesAt b a n)

/-- The table that RING_TABLE writes: 8 entries of 32 bytes. -/
def State.ringTableBytes (s : State) : List Byte :=
  (upto 0 8).flatMap fun p =>
    if p < s.ringN && s.posPresent p then
      if p = s.position then s.statusBody ++ leBytes 8 s.time.orbit ++ leBytes 8 0
      else match tabGet none (s.brix.status.map fun (k, v) => (k, some v)) p with
        | some (b, o) => (b ++ List.replicate 16 0).take 16 ++ leBytes 8 o ++ leBytes 8 0
        | none => List.replicate 32 0
    else List.replicate 32 0

/-- RING_TABLE on the active head (12 Table 12.4). -/
def State.runRingTable (s : State) (w : BoardWait) : State :=
  let addr := le w.body 8 8
  let len := le w.body 16 4
  if len < 256 ∨ len % 8 ≠ 0 ∨ !bodyZero w.body 4 4 ∨ !bodyZero w.body 20 28 then
    s.boardCommit (some w) w.bseq Status.badDescriptor [] []
  else if addr % 8 ≠ 0 then s.boardCommit (some w) w.bseq Status.badAddress [] []
  else
    let t := s.hostWrite 7 addr s.ringTableBytes
    let n := ((upto 0 s.ringN).filter s.posPresent).length
    t.boardCommit (some w) w.bseq Status.ok (leBytes 1 n) [(7, t.openSeq 7)]

/-- RING_ADMIT on the active head (12 Table 12.4). -/
def State.runRingAdmit (s : State) (w : BoardWait) : State :=
  let m := le w.body 4 1
  let ps := (upto 0 8).filter fun p => Nat.testBit m p
  if !bodyZero w.body 5 43 then s.boardCommit (some w) w.bseq Status.badDescriptor [] []
  else if ps.all s.posBypassed then
    let t := { s with brix := { s.brix with admits := ps.foldl insNat s.brix.admits } }
    (t.mirrorChange 1 t.admitData).boardCommit (some w) w.bseq Status.ok [] []
  else s.boardCommit (some w) w.bseq Status.notFound [] []

/-- RING_RELEASE on the active head: the map names the position, and the operation commits when the position is seen
bypassed (12 Table 12.4). A second submission of one that is pending waits with it. -/
def State.runRingRelease (s : State) (w : BoardWait) : State :=
  let b4 := le w.body 4 1
  let p := b4 % 8
  let target := le w.body 8 8
  let fin (st : Nat) : State := s.boardCommit (some w) w.bseq st [] []
  let waits : State := { s with brix := { s.brix with waits := s.brix.waits ++ [w] } }
  if s.brix.releases.any fun r => r.bseq == w.bseq then waits
  else if 8 ≤ b4 ∨ !bodyZero w.body 5 3 ∨ !bodyZero w.body 16 32 then fin Status.badDescriptor
  else if p = s.position then fin Status.badDescriptor
  else if s.ringN ≤ p ∨ !s.posPresent p then fin Status.notFound
  else if orbitDiff target s.time.orbit < 2 then fin Status.late
  else
    let t := { waits with brix := { waits.brix with releases := waits.brix.releases ++ [Release.mk p target w.bseq] } }
    t.mirrorChange 2 (Release.mk p target w.bseq).bytes

/-- The active head runs a board operation. -/
def State.boardRun (s : State) (w : BoardWait) : State :=
  match w.opcode with
  | 0x60 => s.runRingTable w
  | 0x61 => s.runRingAdmit w
  | _ => s.runRingRelease w

/-- The active head runs a board operation that came to it, unless its BSEQ has been committed: an own submission then takes
the stored outcome, and one of the other head has completed there. A RING_TABLE waits while the class-7 share cannot take it
(12 R358, 10 Table 10.5). -/
def State.boardTry (s : State) (w : BoardWait) : State :=
  match s.brix.ops.find? fun o => o.bseq == w.bseq with
  | some o => if w.remote then s else s.boardDone w o []
  | none =>
  if w.opcode = 0x60 then
    (s.tryShare 7 0 fun t => t.boardRun w).getD { s with brix := { s.brix with waits := s.brix.waits ++ [w] } }
  else s.boardRun w

/-- The active head tries again the RING_TABLEs that wait for the share. -/
def State.retryTables (s : State) : State :=
  if s.brix.role == .active then
    let ws := s.brix.waits.filter fun w => w.opcode == 0x60
    ws.foldl State.boardTry { s with brix := { s.brix with waits := s.brix.waits.filter fun w => w.opcode != 0x60 } }
  else s

/-- Acceptance of a board operation: not a head, a BSEQ of 0, one already committed, one for the active head, or the
operation itself (12 R358). -/
def State.boardOp (s : State) (r : Nat) (f : Fetched) : State :=
  let bseq := f.body 0 4
  if !s.isHead then s.finish r f Status.unsupported
  else if bseq = 0 then s.finish r f Status.badDescriptor
  else
    let w : BoardWait := ⟨false, r, f.sq, f.tag, bseq, f.opcode, bytesAt f.bytes 16 48, false⟩
    match s.brix.ops.find? fun o => o.bseq == bseq with
    | some o => s.boardDone w o []
    | none =>
      if s.brix.role = .active then s.boardRun w
      else { s with brix := { s.brix with waits := s.brix.waits ++ [w] } }.mirrorSend []
        (mirrorBody 2 f.opcode 0 s.time.orbit (leBytes 1 r ++ leBytes 1 0 ++ leBytes 2 f.sq ++ leBytes 4 f.tag.toNat ++ w.body))

/-- RING_TABLE; it waits while the class-7 share cannot take the table. -/
def execRingTable (ring : Nat) (s : State) : Host.Outcome State Fault Refusal :=
  match s.acceptNext ring with
  | some f =>
    match s.tryShare 7 0 fun t => t.acceptRun ring f fun f t => t.boardOp ring f with
    | some t => whenDue s (f.opcode == 0x60) t
    | none => .next s
  | none => .next s

/-- RING_ADMIT. -/
def execRingAdmit (ring : Nat) (s : State) : Host.Outcome State Fault Refusal :=
  acceptDesc ring (· == 0x61) (fun f t => t.boardOp ring f) s

/-- RING_RELEASE. -/
def execRingRelease (ring : Nat) (s : State) : Host.Outcome State Fault Refusal :=
  acceptDesc ring (· == 0x62) (fun f t => t.boardOp ring f) s

/-- The first pending release whose position is seen bypassed. -/
def State.seenRelease (s : State) : Option Release :=
  s.brix.releases.find? fun r => 0 < orbitDiff s.time.orbit r.orbit && s.posBypassed r.position

/-- A release has been seen: its operation commits OK, and each submission of it that waits completes. -/
def State.releaseSeen (s : State) (r : Release) : State :=
  let ws := s.brix.waits.filter fun w => w.bseq == r.bseq
  let own := ws.filter fun w => !w.remote
  let t := { s with brix := { s.brix with
    releases := s.brix.releases.filter fun q => q.bseq != r.bseq
    waits := s.brix.waits.filter fun w => w.bseq != r.bseq } }
  let t := (t.mirrorChange 7 r.bytes).boardCommit (own.head? <|> ws.head?) r.bseq Status.ok [] []
  (own.drop 1).foldl (fun t w => t.boardDone w (t.outcomeOp r.bseq Status.ok []) []) t

/-- Released positions that are seen bypassed: their operations complete OK. -/
def State.releasesSeen (s : State) : State :=
  if s.brix.role == .active then
    s.brix.releases.foldl (fun t _ => match t.seenRelease with
      | some r => t.releaseSeen r
      | none => t) s
  else s

/-- A head becomes active: it commits the board operations that had not been committed, and forms digests from the next
orbit on at the latest (12 R358, R359). -/
def State.becomeActive (s : State) : State :=
  let t := s.setRole .active
  let ws := t.brix.waits
  let t := { t with brix := { t.brix with
    waits := [], baseApplied := true, wantBase := false
    closeFrom := some (t.brix.closeFrom.getD (nextOrbit t.time.orbit)) } }
  ws.foldl State.boardTry t

/-- A head takes a role (12 R355). A former active head has the whole board state. -/
def State.takeRole (s : State) (r : Role) : State :=
  match r with
  | .active => if s.brix.role = .active then s else s.becomeActive
  | _ => s.setRole r

/-- ROLE_TAKEOVER: a standby that has received no valid frame marked ACT from the other head for 16 crossings (12 R356). -/
def execRoleTakeover (s : State) : Host.Outcome State Fault Refusal :=
  whenDue s (s.isHead && s.brix.bypassOpen && s.brix.role == .standby && 16 ≤ s.brixP.sinceAct && 16 ≤ s.brixQ.sinceAct)
    s.becomeActive

/-- SPLIT: both heads are active, and head B becomes STANDBY at the next crossing N−G (12 R356). -/
def execSplit (s : State) : Host.Outcome State Fault Refusal :=
  whenDue s (s.isHead && s.position == 1 && s.brix.role == .active && (16 ≤ s.brixP.actRun || 16 ≤ s.brixQ.actRun) &&
      !s.brix.splitAtGap)
    ({ s with brix := { s.brix with splitAtGap := true } }.event Reg.brxStat 21)

/-- What crossing N−G does in the ring: bypass, roles and preference (12 R348, R350, R356, R361). No role swap begins during
a restart of E7 (01 R28). -/
def State.brixGap (s : State) : State :=
  let s := if s.brix.bypassOpen && (s.brix.leaving || s.releasedNow) then s.closeBypass else s
  let s := if s.brix.splitAtGap then
      { s with brix := { s.brix with splitAtGap := false } }.takeRole .standby
    else s
  let s := if s.brix.swapAtGap && !(s.engine 7).restarting then
      { s with brix := { s.brix with swapAtGap := false } }.takeRole s.brix.role.other
    else s
  { s with brix := { s.brix with preferB := s.preferMarked } }

/-! ### Mirroring (12 R357, R364) -/

/-- A board operation's outcome reaches the standby: it is kept, an own submission that waits completes, and one that the
host submitted to the other head only is completed on that head's ring (12 R358). -/
def State.outcomeSeen (s : State) (orbit : Nat) (b : List Byte) : State :=
  let op := s.outcomeOp (le b 0 4) (byteAt b 4) (bytesAt b 5 10)
  let ws := s.brix.waits.filter fun w => w.bseq == op.bseq && !w.remote
  let t := s.keepOp orbit op
  let t := { t with brix := { t.brix with waits := t.brix.waits.filter fun w => w.bseq != op.bseq } }
  if ws.isEmpty then
    (if byteAt b 16 = 1 then
      t.partnerCompletion (byteAt b 17) (le b 18 2) (BitVec.ofNat 32 (le b 20 4)) op []
    else t)
  else ws.foldl (fun t w => t.boardDone w op []) t

/-- One outcome of a base copy: kept when it is not among the last 64 yet. -/
def State.baseOutcome (s : State) (b : List Byte) : State :=
  if s.brix.ops.any fun o => o.bseq == le b 0 4 then s
  else
    let op := s.outcomeOp (le b 0 4) (byteAt b 4) (bytesAt b 5 10)
    let ws := s.brix.waits.filter fun w => w.bseq == op.bseq && !w.remote
    let t := { s with brix := { s.brix with
      ops := (op :: s.brix.ops).take 64
      waits := s.brix.waits.filter fun w => w.bseq != op.bseq } }
    ws.foldl (fun t w => t.boardDone w op []) t

/-- An arm as mirrored or as a ROLE ARM gives it. -/
def armOf (newActive bseq target : Nat) : Arm := ⟨0, newActive, bseq, BitVec.ofNat 64 target, none, false⟩

/-- Two arms are for the same swap (12 Table 12.6). -/
def Arm.same (a b : Arm) : Bool := a.newActive == b.newActive && a.bseq == b.bseq && a.target == b.target

/-- The partner's arm is recorded, once. -/
def State.partnerArmed (s : State) (a : Arm) : State :=
  if s.brix.partnerArms.any a.same then s
  else { s with brix := { s.brix with partnerArms := s.brix.partnerArms ++ [a] } }

/-- The ring map as mirrored; a change of the bypassed positions sets TOPO_EVT (12 R357, Table 12.9). -/
def State.mapMirrored (s : State) (d : List Byte) (orbit : Nat) : State :=
  let t := s.keepMap d
  { t with brix := { t.brix with ringMap := some (d, orbit) } }

/-- A change of the board state, or a piece of a base copy, is applied. -/
def State.applyMirror (s : State) (base : Bool) (sub orbit : Nat) (d : List Byte) : State :=
  match sub with
  | 0 => s.mapMirrored d orbit
  | 1 => { s with brix := { s.brix with
      admits := (upto 0 8).filter fun p => Nat.testBit (byteAt d 0) p
      admitNext := byteAt d 1 } }
  | 2 => { s with brix := { s.brix with
      releases := (s.brix.releases.filter fun r => r.bseq != le d 4 4) ++ [Release.mk (byteAt d 0) (le d 8 8) (le d 4 4)] } }
  | 3 => if base then (chunksOf 16 14 d).foldl State.baseOutcome s else s.outcomeSeen orbit d
  | 4 => s.partnerArmed (armOf (byteAt d 0) (le d 4 4) (le d 8 8))
  | 5 => { s with brix := { s.brix with
      partnerCfg := BitVec.ofNat 32 (le d 0 4), partnerFault := BitVec.ofNat 32 (le d 4 4) } }
  | 6 => { s with brix := { s.brix with partnerArms :=
      if d.isEmpty then [] else s.brix.partnerArms.filter fun a => !a.same (armOf (byteAt d 0) (le d 4 4) (le d 8 8)) } }
  | 7 => { s with brix := { s.brix with releases :=
      if d.isEmpty then [] else s.brix.releases.filter fun r => r.bseq != le d 4 4 } }
  | _ => s

/-- A version of the mirrored state has been reached. -/
def State.reachVersion (s : State) (v orbit : Nat) : State :=
  { s with brix := { s.brix with mirrorVer := v, verLog := ((orbit, v) :: s.brix.verLog).take 1024 } }

/-- The outcome of a board operation comes outside the order of versions: a head that is not in SYNC completes the operation
all the same (12 R364). -/
def State.newOutcome (s : State) (orbit : Nat) (d : List Byte) : State :=
  if s.brix.ops.any fun o => o.bseq == le d 0 4 then s else s.outcomeSeen orbit d

/-- What a MIRROR message does at a standby: the next version's change is applied, a missed one makes it ask for a base
copy, and the last piece of a base copy completes it (12 R357, R364). -/
def State.mirrorStandby (s : State) (kind sub ver orbit : Nat) (d : List Byte) : State :=
  let b := s.brix
  if kind = 4 then
    (if sub = 15 then
      let t := s.reachVersion ver orbit
      { t with brix := { t.brix with
        baseApplied := true, wantBase := false, closeFrom := some (b.closeFrom.getD (nextOrbit s.time.orbit)) } }
    else s.applyMirror true sub orbit d)
  else if !b.baseApplied then (if kind = 1 && sub = 3 then s.newOutcome orbit d else s)
  else if kind = 1 then
    (if ver = (b.mirrorVer + 1) % 2 ^ 32 then (s.applyMirror false sub orbit d).reachVersion ver orbit
    else if ver = b.mirrorVer then s
    else (if sub = 3 then s.newOutcome orbit d else s).askBase)
  else if kind = 8 && ver ≠ b.mirrorVer then s.askBase
  else s

/-- What a MIRROR message does at the active head: it runs a board operation that the standby passed on, unless it has
committed it, and answers a request for a base copy (12 R357, R358). -/
def State.mirrorActive (s : State) (kind sub : Nat) (d : List Byte) : State :=
  if kind = 2 then
    let w : BoardWait := ⟨true, byteAt d 0, le d 2 2, BitVec.ofNat 32 (le d 4 4), le d 8 4, sub, d.drop 8, false⟩
    s.boardTry w
  else if kind = 3 then { s with brix := { s.brix with syncRun := 0 } }.sendBase
  else s

/-- A completion of the other head for one of this head's rings: it takes an entry beside the descriptor's own (12 R358). -/
def State.extraCompletion (s : State) (d : List Byte) : State :=
  let c : Completion := {
    ring := byteAt d 0, sq := le d 2 2, status := BitVec.ofNat 8 (byteAt d 1), tag := BitVec.ofNat 32 (le d 4 4)
    commitX := s.time.xcount, quality := BitVec.ofNat 8 s.quality, resumed := false
    result := (bytesAt d 8 16 ++ List.replicate 16 0).take 16
    needs := [], after := none, extra := true }
  if byteAt d 0 < 32 then { s with ctl := { s.ctl with committed := s.ctl.committed ++ [c] } }.releaseNow else s

/-- What a MIRROR message does at a head. -/
def State.mirrorNow (s : State) (b : List Byte) : State :=
  let kind := byteAt b 0
  let sub := byteAt b 1
  let d := b.drop 16
  if kind = 7 then s.extraCompletion d
  else match s.brix.role with
    | .standby => s.mirrorStandby kind sub (le b 4 4) (le b 8 8) d
    | .active => s.mirrorActive kind sub d
    | .none => s

/-- A message from the other head comes while E7 restarts: it waits for the resumption (01 R28, 12 R357). -/
def State.holdIn (s : State) (type : Nat) (b : List Byte) : State :=
  { s with brix := { s.brix with heldIn := s.brix.heldIn ++ [(type, b)] } }

/-- What a MIRROR message does. -/
def State.mirror (s : State) (b : List Byte) : State :=
  let t := { s with brix := { s.brix with mirrorSeen := true } }
  if (s.engine 7).restarting then t.holdIn 0x44 b else t.mirrorNow b

/-- MIRROR. -/
def execMirror (body : List Byte) (s : State) : Host.Outcome State Fault Refusal := .next (s.mirror body)

/-! ### Closure (12 R359 to R361) -/

/-- A head in the ring forms the digest of orbit `k`: from the first whole orbit that it was active in, or that followed its
base copy (12 R359, R364). -/
def State.closes (s : State) (k : Nat) : Bool :=
  s.isHead && s.brix.bypassOpen && s.brix.role != .none && match s.brix.closeFrom with
    | some f => 0 ≤ orbitDiff k f
    | none => false

/-- At crossing 0 the orbit just ended waits for its digest, with its evidence (12 R359). -/
def State.endDigest (s : State) : State :=
  let b := s.brix
  let k := (s.time.orbit + 2 ^ 44 - 1) % 2 ^ 44
  { s with brix := { b with
    ended := if s.closes k then ((k, b.evidence) :: b.ended).take 4 else b.ended
    evidence := 0 } }

/-- The digest of orbit `k` (12 R359). -/
def State.digestOf (s : State) (k : Nat) : Word :=
  let b := s.brix
  let frames := (b.digestIn.filter fun e => e.1 == k).flatMap fun (_, fc, h) => [fc, h]
  let ops := (b.opsIn.filter fun e => e.1 == k).flatMap Prod.snd
  let ver := match b.verLog.find? fun e => 0 ≤ orbitDiff k e.1 with
    | some (_, v) => v
    | none => 0
  crc32c (frames ++ ops ++ leBytes 4 ver)

/-- ATTRIB of a mismatch: 1 DL_A, 2 DL_B, 3 HEAD_A, 4 HEAD_B, 5 UNKNOWN (12 Table 12.5). -/
def attribOf (a b : Byte) : Nat :=
  if a.getLsbD 0 != b.getLsbD 0 then (if a.getLsbD 0 then 1 else 2)
  else if a.getLsbD 1 != b.getLsbD 1 then (if a.getLsbD 1 then 3 else 4)
  else 5

/-- The head that holds the active role is head A, as this head knows it. -/
def State.activeIsA (s : State) : Bool := (s.brix.role == .active) == (s.position == 0)

/-- A mismatch attributed to the active head or its downlink (12 R361). -/
def blames (attrib : Nat) (activeIsA : Bool) : Bool :=
  if activeIsA then attrib == 1 || attrib == 3 else attrib == 2 || attrib == 4

/-- The standby is in SYNC: as its own state tells it, or at the active head by the matches it has seen
(notes/assumptions/26.md). -/
def State.standbySync (s : State) : Bool :=
  if s.brix.role = .standby then s.brix.sync else 4 ≤ s.brix.syncRun

/-- The two digests of an orbit are compared (12 R360, R361, R364). -/
def State.compareClosure (s : State) (k : Nat) (mine theirs : Word) (evM evT : Byte) : State :=
  let b := { s.brix with compared := (k :: s.brix.compared).take 16, missing := false }
  if mine = theirs then
    let run := b.syncRun + 1
    { s with brix := { b with
      closureRun := satInc 0xFF b.closureRun, lastMatch := true, blameRun := 0, syncRun := run
      sync := b.sync || (b.role == .standby && b.baseApplied && 4 ≤ run) } }
  else
    let (evA, evB) := if s.position = 0 then (evM, evT) else (evT, evM)
    let at_ := attribOf evA evB
    let blame := if blames at_ s.activeIsA then b.blameRun + 1 else 0
    let swap := bit (s.reg Reg.brxFault) 8 && s.standbySync && s.fld1 Reg.brxFault 7 0 ≤ blame
    { s with brix := { b with
      closureRun := 0, lastMatch := false, attrib := at_, mismatches := satInc 0xFFFF b.mismatches
      mismatchOrbit := k, blameRun := blame, swapAtGap := b.swapAtGap || swap
      syncRun := if s.standbySync then b.syncRun else 0 } }.event Reg.brxStat 17

/-- Compares the digests of orbit `k`, once both are known. -/
def State.tryCompare (s : State) (k : Nat) : State :=
  match s.brix.digests.find? (fun p => p.1 == k), s.brix.partnerDigests.find? (fun p => p.1 == k) with
  | some (_, m, evM), some (_, d, ev) => if memNat s.brix.compared k then s else s.compareClosure k m d evM ev
  | _, _ => s

/-- The head forms the digest of an orbit and sends it. -/
def State.sendClosure (s : State) (k : Nat) (ev : Byte) : State :=
  let d := s.digestOf k
  let b := s.brix
  let t := { s with brix := { b with
    digests := ((k, d, ev) :: b.digests).take 8
    digestIn := b.digestIn.filter fun e => 0 < orbitDiff e.1 k
    opsIn := b.opsIn.filter fun e => 0 < orbitDiff e.1 k
    closureSent := some k } }
  (t.toPartner 0x45 (leBytes 8 k ++ leBytes 4 d.toNat ++ [ev] ++ leBytes 3 0)).tryCompare k

/-- CLOSURE_SEND: at crossing 16 of orbit k + 1, or when E7 is back, the head sends the digest of orbit k (12 R359,
01 R28). -/
def execClosureSend (s : State) : Host.Outcome State Fault Refusal :=
  match s.brix.ended with
  | (k, ev) :: _ =>
    whenDue s (s.closes k && s.engineUp 7 && 16 ≤ s.time.cross && nextOrbit k == s.time.orbit && s.brix.closureSent != some k)
      (s.sendClosure k ev)
  | [] => .next s

/-- What a CLOSURE body does. -/
def State.closureNow (s : State) (b : List Byte) : State :=
  let k := le b 0 8
  { s with brix := { s.brix with
    partnerDigests := ((k, BitVec.ofNat 32 (le b 8 4), BitVec.ofNat 8 (byteAt b 12)) :: s.brix.partnerDigests).take 8
    } }.tryCompare k

/-- A CLOSURE message; it waits for the end of a restart of E7. -/
def State.closure (s : State) (b : List Byte) : State :=
  if (s.engine 7).restarting then s.holdIn 0x45 b else s.closureNow b

/-- CLOSURE. -/
def execClosure (body : List Byte) (s : State) : Host.Outcome State Fault Refusal := .next (s.closure body)

/-- The oldest own digest whose orbit is MISSING: crossing 0 of orbit k + 2 has come without the partner's (12 R360). -/
def State.missingOrbit (s : State) : Option Nat :=
  (s.brix.digests.map fun p => p.1).reverse.find? fun k => 2 ≤ orbitDiff s.time.orbit k && !memNat s.brix.compared k &&
    !s.brix.heldIn.any fun m => m.1 == 0x45 && le m.2 0 8 == k

/-- CLOSURE_MISSING: neither a match nor a mismatch. -/
def execClosureMissing (s : State) : Host.Outcome State Fault Refusal :=
  match s.missingOrbit with
  | some k => .next { s with brix := { s.brix with
      missing := true, compared := (k :: s.brix.compared).take 16 } }
  | none => .next s

/-! ### Role swap (12 R362, R363) -/

/-- A ROLE body (12 R363). -/
def roleBody (kind newActive result bseq : Nat) (target : Nat) : List Byte :=
  leBytes 1 kind ++ leBytes 1 newActive ++ leBytes 1 result ++ leBytes 1 0 ++ leBytes 4 bseq ++ leBytes 8 target

/-- An accepted ROLE_SWAP stake arms this head and tells the partner; a pending arm is board state (12 R357, R363). -/
def State.armSwap (s : State) (sid newActive bseq target : Nat) : State :=
  let a : Arm := { armOf newActive bseq target with sid := sid }
  let t := { s with brix := { s.brix with arms := s.brix.arms ++ [a] } }
  (t.toPartner 0x46 (roleBody 1 newActive 0 bseq target)).mirrorChange 4 a.bytes

/-- What a ROLE ARM body does: the partner's arm is recorded. -/
def State.roleArm (s : State) (b : List Byte) : State :=
  if (s.engine 7).restarting then s.holdIn 0x46 b else s.partnerArmed (armOf (byteAt b 1) (le b 4 4) (le b 8 8))

/-- ROLE_ARM. -/
def execRoleArm (body : List Byte) (s : State) : Host.Outcome State Fault Refusal := .next (s.roleArm body)

/-- The head that holds the active role is the one named. -/
def State.newIsActive (s : State) (n : Nat) : Bool := s.activeIsA == (n == 0)

/-- The outcome of a role swap that the active head decides (12 Table 12.6); a restart of the partner's E7 is not known
here (notes/assumptions/26.md). -/
def State.swapOutcome (s : State) (a : Arm) : Bool × Byte :=
  if (s.engine 7).restarting then (false, BitVec.ofNat 8 Status.late)
  else if !s.brix.partnerArms.any a.same || !s.standbySync then (false, BitVec.ofNat 8 Status.notFound)
  else if s.newIsActive a.newActive then (false, BitVec.ofNat 8 Status.ok)
  else (true, BitVec.ofNat 8 Status.ok)

/-- The distance to the target of an arm. -/
def State.armDistance (s : State) (a : Arm) : Int := s.distance (a.target.toNat / 2 ^ 20) (a.target.toNat % 2 ^ 13)

/-- The arm with its stake's number is replaced. -/
def State.setArm (s : State) (a : Arm) : State :=
  { s with brix := { s.brix with arms := s.brix.arms.map fun b => if b.sid == a.sid then a else b } }

/-- The arm that the active head is to decide: its target is at most 32 crossings away. -/
def State.armToDecide (s : State) : Option Arm :=
  s.brix.arms.find? fun a => a.decided.isNone && decide (0 ≤ s.armDistance a) && decide (s.armDistance a ≤ 32)

/-- ROLE_SWAP_DECIDE: 32 crossings before the target the active head decides. -/
def execRoleSwapDecide (s : State) : Host.Outcome State Fault Refusal :=
  match s.armToDecide with
  | some a => whenDue s (s.brix.role == .active) (s.setArm { a with decided := some (s.swapOutcome a) })
  | none => .next s

/-- 24 crossings before the target the active head sends its decision (12 R363). -/
def State.tellDecision (s : State) : State :=
  if s.brix.role == .active then
    s.brix.arms.foldl (fun t a =>
      match a.decided with
      | some (swap, _) =>
        if !a.told && decide (t.armDistance a ≤ 24) then
          (t.setArm { a with told := true }).toPartner 0x46
            (roleBody 2 a.newActive (if swap then 1 else 0) a.bseq a.target.toNat)
        else t
      | none => t) s
  else s

/-- What a ROLE DECIDE body does: the standby takes the active head's decision for its arm. DECIDE says only whether the roles
swap; why not, follows from the cases of Table 12.6 in their order, and LATE is the one that this head cannot see. -/
def State.decideMsg (s : State) (b : List Byte) : State :=
  if (s.engine 7).restarting then s.holdIn 0x46 b
  else match s.brix.arms.find? fun a => le b 4 4 == a.bseq && le b 8 8 == a.target.toNat with
    | some a =>
      if s.brix.role == .standby then
        let st :=
          if byteAt b 2 = 1 then Status.ok
          else if !s.brix.partnerArms.any a.same || !s.brix.sync then Status.notFound
          else if s.newIsActive a.newActive then Status.ok
          else Status.late
        s.setArm { a with decided := some (byteAt b 2 == 1, BitVec.ofNat 8 st) }
      else s
    | none => s

/-- DECIDE. -/
def execDecide (body : List Byte) (s : State) : Host.Outcome State Fault Refusal := .next (s.decideMsg body)

/-- The engines switch at the target of a stake (15 R432). -/
def State.switchAt (s : State) (k : Stake) : Bool :=
  match s.fw.act with
  | some a => a.copied && s.stakes.any fun q => q.sid == a.sid && q.orbit == k.orbit && q.x == k.x
  | none => false

/-- The outcome of a ROLE_SWAP at its target on this head: no swap during a restart of its E7, an image switch at the same target
among them; else as decided, and a standby
without a decision keeps its role (12 Table 12.6, R363). -/
def State.swapResult (s : State) (k : Stake) : Bool × Byte :=
  if (s.engine 7).restarting || s.switchAt k then (false, BitVec.ofNat 8 Status.late)
  else match s.brix.arms.find? fun a => a.sid == k.sid with
    | some a => match a.decided, s.brix.role with
      | some o, _ => o
      | none, .active => s.swapOutcome a
      | none, _ => (false, BitVec.ofNat 8 Status.notFound)
    | none => (false, BitVec.ofNat 8 Status.notFound)

/-- ROLE_SWAP at its target (12 Table 12.6): both arms of the swap go with it. -/
def State.roleSwap (s : State) (k : Stake) : State :=
  let o := s.swapResult k
  let mine := s.brix.arms.filter fun a => a.sid == k.sid
  let t := { s with brix := { s.brix with
    partnerArms := s.brix.partnerArms.filter fun a => !mine.any a.same } }
  let t := if o.1 then t.takeRole t.brix.role.other else t
  t.endStake k o.2.toNat (if o.2.toNat = Status.ok then t.datum else 0) 0

/-- ROLE_SWAP. -/
def execRoleSwap (s : State) : Host.Outcome State Fault Refusal :=
  match s.dueStake 0x08 with
  | some k => .next (s.roleSwap k)
  | none => .next s

/-- E7 is back: the messages that came meanwhile act in order, and mirroring goes on (01 R28, 12 R357). -/
def State.e7Resume (s : State) : State :=
  let l := s.brix.heldIn
  let t := l.foldl (fun t (ty, b) =>
    if ty = 0x44 then t.mirror b
    else if ty = 0x45 then t.closure b
    else if byteAt b 0 = 1 then t.roleArm b
    else t.decideMsg b) { s with brix := { s.brix with heldIn := [] } }
  t.flushMirror

/-! ### Once per crossing and once per orbit -/

/-- Arms that have left the stake table are taken out of the mirrored state (12 R357). -/
def State.tellGone (s : State) : State :=
  s.brix.armsGone.foldl (fun t a => t.mirrorChange 6 a.bytes) { s with brix := { s.brix with armsGone := [] } }

/-- What every crossing does in the ring: frames where none has come to be sent on, decisions and MIRROR messages that wait
(12 R339, R357, R363). -/
def State.brixTick (s : State) : State := s.ownFrames.tellDecision.tellGone.flushMirror.retryTables

/-- MIRROR traffic of an orbit: a standby in SYNC that has seen none loses SYNC; one without its base copy asks for it, and
the active head tells its version, and takes a standby that has left the ring to be in SYNC no more (12 R357, R364). -/
def State.mirrorOrbit (s : State) : State :=
  let t := if s.brix.mirrorSeen || s.brix.role != .standby then s else { s with brix := { s.brix with sync := false, syncRun := 0 } }
  let t := { t with brix := { t.brix with mirrorSeen := false } }
  match t.brix.role with
  | .standby => if t.brix.baseApplied && !t.brix.wantBase then t else t.askBase
  | .active =>
    let t := if t.posPresent (1 - t.position) then t else { t with brix := { t.brix with syncRun := 0 } }
    t.mirrorSend [] (mirrorBody 8 0 t.brix.mirrorVer t.time.orbit [])
  | .none => t

/-- The active head's RING_MAP: it is kept, mirrored when it has changed, and sent (12 R352, R357, R365). -/
def State.sendMap (s : State) : State :=
  let b := s.mapBody
  let same := match s.brix.ringMap with
    | some (o, _) => o == b
    | none => false
  let t := s.keepMap b
  let t := if same then t else t.mirrorChange 0 b
  let t := t.ringSendUp s.streamOut 0x43 b
  let next := (t.nextAdmit).getD t.brix.admitNext
  let moved := next != t.brix.admitNext
  let t := { t with brix := { t.brix with
    admitNext := next
    releases := t.brix.releases.drop 1 ++ t.brix.releases.take 1 } }
  if moved then t.mirrorChange 1 t.admitData else t

/-- The ports on which a stream leaves this hub: its own stream's at a head, whose mirror link carries head-pair traffic only
(12 R337, R338). -/
def State.streamPorts (s : State) : List Port := if s.isHead then [s.streamOut] else [.p, .q]

/-- What crossing 0 does in the ring: the orbit's digest, SYNC, the messages of R341 and R346 (12 R341, R346, R352, R358,
R364). -/
def State.brixOrbit (s : State) : State :=
  let s := s.endDigest.releasesSeen
  if s.brix.bypassOpen then
    let s := s.mirrorOrbit
    let s := ([Port.p, Port.q].filter fun pt => s.rxUp (portRx pt)).foldl (fun t pt =>
      t.ringSendUp pt 0x41 (t.hopBody pt)) s
    let s := s.streamPorts.foldl (fun t pt => t.ringSendUp pt 0x42 s.statusBody) s
    let s := s.updatePaths
    if s.brix.role = .active then s.sendMap else s
  else s.updatePaths

end Sys2Proof.Machine
end

