-- ==== Sys2Proof/Machine/Thermo.lean ====
section
/-!
DEFINITION. The thermocouple reference functions of IEC 60584, which 13 R380 names for curves 5 to 12 and does not print. The
coefficients are those of the standard, from outside the manual: PRESUMED (notes/assumptions/107.md).
-/

namespace Sys2Proof.Machine

open Sys2Proof

/-- A stretch of a reference function: where it ends, in 1/1000 °C, and its coefficients from that of t⁰ on, each a number of
12 digits and the power of ten of its last digit above 10⁻⁴² mV. -/
abbrev ThermoPart : Type := Int × List (Int × Nat)

/-- The stretches of the reference function of a curve, lowest first. -/
def thermoParts (curve : Nat) : List ThermoPart :=
  match curve with
  -- type K
  | 5 =>
    [(0, [(0, 0), (394501280250, 29), (236223735980, 26), (-328589067840, 24), (-499048287770, 22),
      (-675090591730, 20), (-574103274280, 18), (-310888728940, 16), (-104516093650, 14), (-198892668780, 11),
      (-163226974860, 8)]),
    (1372000, [(-176004136860, 29), (389212049750, 29), (185587700320, 26), (-994575928740, 23), (318409457190, 21),
      (-560728448890, 18), (560750590590, 15), (-320207200030, 12), (971511471520, 8), (-121047212750, 5)])]
  -- type J
  | 6 =>
    [(760000, [(0, 0), (503811878150, 29), (304758369300, 26), (-856810657200, 23), (132281952950, 21),
      (-170529583370, 18), (209480906970, 15), (-125383953360, 12), (156317256970, 8)]),
    (1200000, [(296456256810, 33), (-149761277860, 31), (317871039240, 28), (-318476867010, 25), (157208190040, 22),
      (-306913690560, 18)])]
  -- type T
  | 7 =>
    [(0, [(0, 0), (387481063640, 29), (441944343470, 26), (118443231050, 24), (200329735540, 23), (901380195590, 21),
      (226511565930, 20), (360711542050, 18), (384939398830, 16), (282135219250, 14), (142515947790, 12),
      (487686622860, 9), (107955392700, 7), (139450270620, 4), (797951539270, 0)]),
    (400000, [(0, 0), (387481063640, 29), (332922278800, 26), (206182434040, 24), (-218822568460, 22),
      (109968809280, 20), (-308157587720, 17), (454791352900, 14), (-275129016730, 11)])]
  -- type E
  | 8 =>
    [(0, [(0, 0), (586655087080, 29), (454109771240, 26), (-779980486860, 24), (-258001608430, 23),
      (-594525830570, 21), (-932140586670, 19), (-102876055340, 18), (-803701236210, 15), (-439794973910, 13),
      (-164147763550, 11), (-396736195160, 8), (-558273287210, 5), (-346578420130, 2)]),
    (1000000, [(0, 0), (586655087100, 29), (450322755820, 26), (289084072120, 23), (-330568966520, 21),
      (650244032700, 18), (-191974955040, 15), (-125366004970, 13), (214892175690, 10), (-143880417820, 7),
      (359608994810, 3)])]
  -- type N
  | 9 =>
    [(0, [(0, 0), (261591059620, 29), (109574842280, 26), (-938411115540, 23), (-464120397590, 20),
      (-263033577160, 19), (-226534380030, 17), (-760893007910, 14), (-934196678350, 11)]),
    (1300000, [(0, 0), (259293946010, 29), (157101418800, 26), (438256272370, 23), (-252611697940, 21),
      (643118193390, 18), (-100634715190, 16), (997453389920, 12), (-608632456070, 9), (208492293390, 6),
      (-306821961510, 2)])]
  -- type R
  | 10 =>
    [(1064180, [(0, 0), (528961729765, 28), (139166589782, 26), (-238855693017, 23), (356916001063, 20),
      (-462347666298, 17), (500777441034, 14), (-373105886191, 11), (157716482367, 8), (-281038625251, 4)]),
    (1664500, [(295157925316, 31), (-252061251332, 28), (159564501865, 26), (-764085947576, 22), (205305291024, 19),
      (-293359668173, 15)]),
    (1768100, [(152232118209, 33), (-268819888545, 30), (171280280471, 27), (-345895706453, 23), (-934633971046, 16)])]
  -- type S
  | 11 =>
    [(1064180, [(0, 0), (540313308631, 28), (125934289740, 26), (-232477968689, 23), (322028823036, 20),
      (-331465196389, 17), (255744251786, 14), (-125068871393, 11), (271443176145, 7)]),
    (1664500, [(132900444085, 31), (334509311344, 28), (654805192818, 25), (-164856259209, 22), (129989605174, 17)]),
    (1768100, [(146628232636, 33), (-258430516752, 30), (163693574641, 27), (-330439046987, 23), (-943223690612, 16)])]
  -- type B
  | 12 =>
    [(630615, [(0, 0), (-246508183460, 27), (590404211710, 25), (-132579316360, 22), (156682919010, 19),
      (-169445292400, 16), (629903470940, 12)]),
    (1820000, [(-389381686210, 31), (285717474700, 29), (-848851047850, 26), (157852801640, 24), (-168353448640, 21),
      (111097940130, 18), (-445154310330, 14), (989756408210, 10), (-937913302890, 6)])]
  | _ => []

/-- Σ c_i (t / 65536)^i, as a numerator and a power of 65536, in 10⁻⁴² mV. -/
def polySum (t : Int) : List (Int × Nat) → Int × Nat
  | [] => (0, 1)
  | (m, e) :: r =>
    let (v, p) := polySum t r
    (m * 10 ^ e * (65536 * p : Nat) + v * t, 65536 * p)

/-- e^(−y) for a fixed-point number `y` below 1, in units of 2⁻⁹⁶: 14 terms of its series. -/
def expSmall (y : Int) : Int :=
  (upto 0 14).reverse.foldl (fun r i => 2 ^ 96 - y * r / (2 ^ 96 * (i + 1 : Nat))) (2 ^ 96)

/-- The exponential term of type K above 0 °C, in pV: 0.1185976 mV × e^(−0.1183432 × 10⁻³ (t − 126.9686)²). -/
def thermoKExp (t : Int) : Int :=
  let d : Int := 10000 * t - 1269686 * 65536
  let y : Int := 1183432 * d * d * 2 ^ 96 / (10 ^ 18 * 2 ^ 42)
  let e := (upto 0 10).foldl (fun (r : Int) _ => r * r / 2 ^ 96) (expSmall y)
  roundHalfOut (1185976 * e * 100) (2 ^ 96)

/-- The reference function of a thermocouple type (curves 5 to 12) at `t`/65536 °C, in pV (13 Table 13.4). -/
def thermoE (curve : Nat) (t : Int) : Int :=
  let parts := thermoParts curve
  match (parts.find? fun p => decide (1000 * t ≤ p.1 * 65536)).orElse fun _ => parts.getLast? with
  | some p =>
    let (v, q) := polySum t p.2
    roundHalfOut v (q * 10 ^ 33) + (if curve = 5 && decide (0 < t) then thermoKExp t else 0)
  | none => 0

end Sys2Proof.Machine
end

