-- ==== Sys2Proof/Machine/Survey.lean ====
section
/-!
DEFINITION. The survey port (13): the scan, conversions, open wires, curves, results, self-calibration, host reads and
the survey stream.
-/

namespace Sys2Proof.Machine

open Sys2Proof

/-! ### Numbers and curves (13 R371, R380, R381) -/

/-- A single-precision number in units of 2⁻¹⁴⁹; none for an infinity or no number. -/
def single (w : Word) : Option Int :=
  let e := bits w 30 23
  let m := bits w 22 0
  if e = 255 then none
  else
    let v : Int := if e = 0 then m else ((2 ^ 23 + m) * 2 ^ (e - 1) : Nat)
    some (if bit w 31 then -v else v)

/-- A fraction: numerator and a positive denominator. -/
structure Frac where
  num : Int
  den : Nat
  deriving DecidableEq, Repr

/-- Operations on fractions. -/
def Frac.add (a b : Frac) : Frac := ⟨a.num * b.den + b.num * a.den, a.den * b.den⟩
def Frac.sub (a b : Frac) : Frac := ⟨a.num * b.den - b.num * a.den, a.den * b.den⟩
def Frac.mul (a b : Frac) : Frac := ⟨a.num * b.num, a.den * b.den⟩
def Frac.ofInt (n : Int) : Frac := ⟨n, 1⟩
def Frac.le (a b : Frac) : Bool := decide (a.num * b.den ≤ b.num * a.den)

/-- The quotient; none by 0. -/
def Frac.div (a b : Frac) : Option Frac :=
  if b.num = 0 then none
  else some ⟨a.num * b.den * (if b.num < 0 then -1 else 1), a.den * b.num.natAbs⟩

/-- A parameter as a fraction. -/
def paramFrac (w : Word) : Option Frac := (single w).map fun v => ⟨v, 2 ^ 149⟩

/-- The Q16.16 numbers next to a fraction: the greatest that does not exceed it, and the least that it does not exceed. -/
def Frac.q16 (a : Frac) : Int × Int :=
  let n := a.num * 65536
  (n / a.den, -(-n / a.den))

/-- Binary logarithm of `x / 2⁶⁴`, `x` in [2⁶⁴, 2⁶⁵), in units of 2⁻⁴⁸, by repeated squaring. -/
def log2Frac : Nat → Nat → Nat → Nat
  | 0, _, acc => acc
  | k + 1, x, acc =>
    let y := x * x / 2 ^ 64
    if 2 ^ 65 ≤ y then log2Frac k (y / 2) (2 * acc + 1) else log2Frac k y (2 * acc)

/-- ln of a positive fraction, in units of 2⁻⁴⁸. -/
def lnFrac (a : Frac) : Int :=
  let n := a.num.natAbs
  let k : Int := (Nat.log2 n : Int) - Nat.log2 a.den
  let x : Nat := if 0 ≤ k then n * 2 ^ 64 / (a.den * 2 ^ k.toNat) else n * 2 ^ (64 + (-k).toNat) / a.den
  let (x, k) := if x < 2 ^ 64 then (2 * x, k - 1) else if 2 ^ 65 ≤ x then (x / 2, k + 1) else (x, k)
  -- ln 2 = 195103586505167 / 2⁴⁸, to within 2⁻⁴⁸
  (k * 2 ^ 48 + (log2Frac 48 x 0 : Int)) * 195103586505167 / 2 ^ 48

/-- R/R0 of a platinum resistor at `t`/65536 °C, in units of 10⁻¹⁵ × 2⁻⁶⁴ (13 Table 13.4). -/
def platinum (t : Int) : Int :=
  let c : Int := if t < 0 then -4183 * (t - 100 * 65536) * t * t * t else 0
  10 ^ 15 * 2 ^ 64 + 3908300000000 * t * 2 ^ 48 - 577500000 * t * t * 2 ^ 32 + c

/-- R/P0 of a nickel resistor at `t`/65536 °C, in units of 10⁻¹⁸ × 2⁻⁹⁶. -/
def nickel (t : Int) : Int :=
  10 ^ 18 * 2 ^ 96 + 5485 * 10 ^ 12 * t * 2 ^ 80 + 665 * 10 ^ 10 * t * t * 2 ^ 64 +
    28050000 * t * t * t * t * 2 ^ 32 - 20 * t * t * t * t * t * t

/-- The greatest `t` from `lo` on, within 2ⁿ, with `f t ≤ y`. -/
def bisect (f : Int → Int) (y lo : Int) : Nat → Int
  | 0 => lo
  | n + 1 => let m := lo + 2 ^ n
    bisect f y (if f m ≤ y then m else lo) n

/-- Valid range of a curve, in its unit (13 Table 13.4). -/
def curveRange (curve : Nat) : Int × Int :=
  match curve with
  | 1 => (0, 32767)
  | 2 => (-200, 850)
  | 3 => (-60, 180)
  | 4 => (-80, 250)
  | 5 => (-200, 1372)
  | 6 => (-210, 1200)
  | 7 => (-200, 400)
  | 8 => (-200, 1000)
  | 9 => (-200, 1300)
  | 10 | 11 => (-50, 1768)
  | 12 => (250, 1820)
  | _ => (-32767, 32767)

/-- I_exc in µA (13 Table 13.2). -/
def excCurrent (icode : Nat) : Option Nat :=
  match icode with
  | 1 => some 10
  | 2 => some 50
  | 3 => some 100
  | 4 => some 250
  | 5 => some 500
  | 6 => some 1000
  | _ => none

/-- CODE / 2²³ / 2^GAIN. -/
def codeFrac (code : Int) (gain : Nat) : Frac := ⟨code, 2 ^ (23 + gain)⟩

/-- V_REF in mV, where the hub knows it (13 R371): the internal reference; R_REF carrying the excitation current; the
1.200 V excitation. -/
def vRef (ref icode rref : Nat) : Option Frac :=
  match ref with
  | 1 => (excCurrent icode).map fun i => ⟨(i * rref : Nat), 1000000⟩
  | 2 => if icode = 7 then some ⟨1200, 1⟩ else none
  | _ => some ⟨1250, 1⟩

/-- R less the lead resistance, in Ω (13 R380). -/
def resistance (code : Int) (gain ref icode rref : Nat) (p3 : Frac) : Option Frac :=
  let c := codeFrac code gain
  if ref = 1 then some ((c.mul ⟨rref, 1000⟩).sub p3)
  else match excCurrent icode, vRef ref icode rref with
    | some i, some v => some (((c.mul v).mul ⟨1000, i⟩).sub p3)
    | _, _ => none

/-- The numbers next to the `t` with `f t` = `num` / `den`, `f` rising, from `lo` on, within 2ⁿ. -/
def solve (f : Int → Int) (num : Int) (den : Nat) (lo : Int) (n : Nat) : Int × Int :=
  let t := bisect f (num / den) lo n
  (t, if f t * den = num then t else t + 1)

/-- T = E⁻¹(v + E(T_cj)) of a thermocouple, `v` in pV and `cj` in Q16.16 °C; beyond an end of the valid range, a value just
outside it. The reference function is a polynomial of its range, and is searched there alone (13 Table 13.4, R381, R382). -/
def thermocouple (curve : Nat) (v cj : Int) : Int × Int :=
  let (lo, hi) := curveRange curve
  let e := thermoE curve
  let y := v + e cj
  if y < e (lo * 65536) then (lo * 65536 - 1, lo * 65536 - 1)
  else if e (hi * 65536) < y then (hi * 65536 + 1, hi * 65536 + 1)
  else if y = e (hi * 65536) then (hi * 65536, hi * 65536)
  else solve (fun t => e (min t (hi * 65536))) y 1 (lo * 65536) 27

/-- The exact VALUE of a curve before the range test, by the Q16.16 numbers next to it, with `cj` the cold junction of a
thermocouple; none where the manual does not state one: a parameter that is no number, an excitation without a stated
reference, a logarithm of what is not positive (notes/assumptions/27.md). -/
def evalCurve (curve : Nat) (code : Int) (gain ref icode rref : Nat) (cj : Int) (ps : List Word) : Option (Int × Int) := do
  let p (i : Nat) : Option Frac := paramFrac ((ps.drop i).headD 0)
  let c := codeFrac code gain
  match curve with
  | 0 => (← vRef ref icode rref |>.map c.mul).q16
  | 1 => (← resistance code gain ref icode rref (← p 3)).q16
  | 2 =>
    let r ← resistance code gain ref icode rref (← p 3)
    let x ← r.div (← p 0)
    solve platinum (x.num * (10 ^ 15 * 2 ^ 64)) x.den (-1024 * 65536) 27
  | 3 =>
    let r ← resistance code gain ref icode rref (← p 3)
    let x ← r.div (← p 0)
    solve nickel (x.num * (10 ^ 18 * 2 ^ 96)) x.den (-128 * 65536) 25
  | 4 =>
    let r ← resistance code gain ref icode rref (← p 3)
    if r.num ≤ 0 then none
    else
      let l : Frac := ⟨lnFrac r, 2 ^ 48⟩
      let y := ((← p 0).add ((← p 1).mul l)).add ((← p 2).mul (l.mul (l.mul l)))
      let t ← (Frac.ofInt 1).div y
      (t.sub ⟨27315, 100⟩).q16
  | 13 => (((c.mul ⟨1000, 1⟩).sub (← p 0))).q16
  | 14 =>
    let v ← vRef ref icode rref
    (← ((c.mul v).mul ⟨1000, 1⟩).div (← p 0)).q16
  | 15 =>
    let v ← vRef ref icode rref
    (((← p 0).mul (c.mul v)).add (← p 1)).q16
  | _ =>
    let v := c.mul (← vRef ref icode rref)
    thermocouple curve (roundHalfOut (v.num * 10 ^ 9) v.den) cj

/-- How far VALUE may lie from the exact one, LSB (13 R381): 0.005 °C, or 1 LSB. -/
def curveSlack (curve : Nat) : Nat := if 2 ≤ curve && curve ≤ 12 then 327 else 1

/-- VALUE and whether CURVE_RANGE applies, for a conversion; within the stated error, and where nothing is stated within
the range, the value is a free one. -/
def State.curveValue (s : State) (curve : Nat) (code : Int) (gain ref icode rref : Nat) (cj : Int) (ps : List Word) :
    Int × Bool × State :=
  let (lo, hi) := curveRange curve
  match evalCurve curve code gain ref icode rref cj ps with
  | some (a, b) =>
    if a < lo * 65536 then (lo * 65536, true, s)
    else if hi * 65536 < b then (hi * 65536, true, s)
    else
      let (f, s) := s.free
      let k := curveSlack curve
      (clampI (lo * 65536) (hi * 65536) (b - k + (f % (2 * k + 1 - (b - a).toNat) : Nat)), false, s)
  | none =>
    let (f, s) := s.free
    let (o, s) := s.free
    if o % 2 = 1 then ((if f % 2 = 0 then lo * 65536 else hi * 65536), true, s)
    else (lo * 65536 + (f % ((hi - lo) * 65536 + 1).toNat : Nat), false, s)

/-! ### Points -/

/-- The settings of a point as registers: EN. -/
def State.ptEn (s : State) (p : Nat) : Bool := bit (s.reg (Reg.srvPtA p)) 7

/-- The settings of the point under conversion are taken (13 R376). -/
def State.takePoint (s : State) (p : Nat) : State :=
  let b := s.reg (Reg.srvPtB p)
  { s with survey := { s.survey with
    ptA := s.reg (Reg.srvPtA p), ptB := b
    ptPar := (upto 0 4).map fun w => s.reg (Reg.srvPar (4 * bits b 15 12 + w)) } }

/-- ICODE of the point under conversion: 0 has no excitation. -/
def State.icode (s : State) : Nat := bits s.survey.ptA 27 25

/-- The input multiplexer is on the point whose settings were taken, and its excitation source is on: from the switch to
the end of its conversion, or of its continuous entry (13 R368, R372, R373). -/
def State.srvOn (s : State) : Bool :=
  match s.survey.job with
  | .settling _ _ | .converting _ _ => true
  | _ => false

/-- What an SV pin does: positive input, negative input, excitation output of a source with its ICODE, and the 1 µA of the
open test (13 R366, R368, R378). -/
structure SvPin where
  pos : Bool
  neg : Bool
  drive : Option (Nat × Nat)
  test : Bool
  deriving DecidableEq, Repr

/-- A pin that no conversion is using: a high-impedance input (13 R366). -/
def SvPin.highZ : SvPin := ⟨false, false, none, false⟩

/-- SV pin `k` in the present crossing. -/
def State.svPin (s : State) (k : Nat) : SvPin :=
  let a := s.survey.ptA
  if s.srvOn then
    let settles := match s.survey.job with
      | .settling _ _ => true
      | _ => false
    { pos := bits a 5 0 == k
      neg := !bit a 6 && bits a 13 8 == k
      drive := if s.icode != 0 && bits a 21 16 == k then some (bits a 24 22, s.icode) else none
      test := settles && s.icode == 0 && bit s.survey.ptB 19 && bits a 5 0 == k }
  else .highZ

/-- The ICODE that source `k` drives; none while it is off (13 R368, Table 13.2). -/
def State.sourceOn (s : State) (k : Nat) : Option Nat :=
  if s.srvOn && s.icode != 0 && bits s.survey.ptA 24 22 == k then some s.icode else none

/-- R of a RATE (13 R370). -/
def rateOf (r : Nat) : Nat := ([4000, 2000, 1000, 500, 250, 100, 50, 10].drop r).headD 10

/-- Plumb counts from a result's midpoint to its posting (13 R374). -/
def State.midBack (s : State) : Nat := 1500000000 / rateOf (bits s.survey.ptB 22 20)

/-- Datum and Plumb of the midpoint of a result posted now. -/
def State.midpoint (s : State) : Nat × Nat :=
  let k := s.midBack
  let x := if s.period = 0 then 0 else ceilDiv (k * 1000 * 2 ^ 24) s.period
  let d := s.datumBack ((s.time.xcount : Int) - x)
  (datumWord d.1 d.2, (s.time.plumb + 2 ^ 64 - k) % 2 ^ 64)

/-! ### Results (13 R383 to R390) -/

/-- A survey record (13 Table 13.6). -/
def surveyRecord (p : Nat) (read : Bool) (status : Nat) (code : BitVec 24) (value : Word) (sseq curve datum plumb : Nat) :
    List Byte :=
  leBytes 2 0x5B7E ++ leBytes 1 (p + (if read then 64 else 0)) ++ leBytes 1 status ++ leBytes 4 (toTwos 32 code.toInt) ++
    leBytes 4 value.toNat ++ leBytes 2 sseq ++ leBytes 1 curve ++ leBytes 1 0 ++ leBytes 8 datum ++ leBytes 8 plumb

/-- Forms a record and places it in class 5, or counts it discarded (13 R389, R390). -/
def State.streamSurvey (s : State) (p : Nat) (read : Bool) (status : Nat) (code : BitVec 24) (value : Word)
    (datum plumb : Nat) : State :=
  let v := s.survey
  let b := surveyRecord p read status code value v.sseqNext (bits v.ptB 11 8) datum plumb
  let t := { s with survey := { v with sseqLast := v.sseqNext, sseqNext := (v.sseqNext + 1) % 65536 } }
  match t.tryShare 5 0 fun u => u.placeRecord 5 b true false with
  | some u => u
  | none => { t with survey := { t.survey with drop := satInc 0xFFFFFFFF t.survey.drop } }.event Reg.srvStat 9

/-- STREAM_EN. -/
def State.srvStream (s : State) : Bool := bit (s.reg Reg.srvCtl) 3

/-- Age of a point's result, ms of Plumb, stops at 0xFFFF; 0xFFFF before the first (13 R384, R386, Table 13.7). -/
def State.srvAge (s : State) (k : Nat) : Nat :=
  match (s.srvRes k).postedAt with
  | some a => min 0xFFFF ((s.time.plumb - a) / 10 ^ 6)
  | none => 0xFFFF

/-- A point's result is stale: a self-calibration has run since, or its age exceeds AGE (13 R385, R386). -/
def State.srvStale (s : State) (k : Nat) : Bool :=
  let r := s.srvRes k
  r.status.getLsbD 7 || (r.postedAt.isSome && s.fld Reg.srvStale 15 0 < s.srvAge k)

/-- Posts a result of a point (13 R379, R384). -/
def State.postResult (s : State) (p status : Nat) (code : BitVec 24) (value : Word) : State :=
  let r := s.srvRes p
  let run := if status = 1 then r.openRun + 1 else 0
  let sets := status = 1 ∧ max 1 (s.fld Reg.srvStale 27 24) ≤ run
  let t := s.setSrvRes p {
    value := value, status := BitVec.ofNat 8 status, code := code, postedAt := some s.time.plumb, openRun := run
    fault := if sets then true else if status = 0 then false else r.fault }
  if sets && !r.fault then t.event Reg.srvStat 8 else t

/-- The read that a conversion serves completes (13 R387). -/
def State.readDone (s : State) (status : Nat) (code : BitVec 24) (value : Word) (datum : Nat) : State :=
  match s.survey.reads with
  | r :: rest =>
    let t := { s with survey := { s.survey with reads := rest } }
    t.commit r.ring r.sq (if status = 1 then Status.openInput else Status.ok) r.tag r.resumed
      (leBytes 4 value.toNat ++ leBytes 3 code.toNat ++ leBytes 1 status ++ leBytes 8 datum) [] none
  | [] => s

/-- A result is posted, streamed, and returned to the read that asked for it. -/
def State.result (s : State) (p : Nat) (read : Bool) (status : Nat) (code : BitVec 24) (value : Word) (datum plumb : Nat) :
    State :=
  let stream := s.srvStream || (read && match s.survey.reads with
    | r :: _ => r.stream
    | [] => false)
  let t := s.postResult p status code value
  let t := if stream then t.streamSurvey p read status code value datum plumb else t
  if read then t.readDone status code value datum else t

/-- An OPEN result, timed at its posting (13 R377 to R379; notes/assumptions/27.md). -/
def State.openResult (s : State) (p : Nat) (read : Bool) : State :=
  s.result p read 1 0x800000 0x80000000 s.datum s.time.plumb

/-- The cold-junction source of a thermocouple is invalid (13 R382). -/
def State.cjInvalid (s : State) : Bool :=
  let b := s.survey.ptB
  let c := bits b 11 8
  let k := bits b 31 26
  5 ≤ c && c ≤ 12 && !bit b 25 && ((s.srvRes k).status.toNat % 16 != 0 || s.srvStale k)

/-- T_cj in Q16.16 °C: the internal sensor, or the latest result of point CJ_PT (13 R382). -/
def State.coldJunction (s : State) : Int :=
  let b := s.survey.ptB
  if bit b 25 || s.cjInvalid then s.survey.temp.toInt * 4096 else (s.srvRes (bits b 31 26)).value.toInt

/-- The result of a conversion of code `code` (13 R371, R380 to R383). -/
def State.convResult (s : State) (p : Nat) (read : Bool) (code : BitVec 24) : State :=
  let b := s.survey.ptB
  let curve := bits b 11 8
  let ref := bits b 24 23
  let atRail := code == 0x800000 || code == 0x7FFFFF
  let cj := s.cjInvalid
  let (f, s) := s.free
  let s := { s with survey := { s.survey with temp := BitVec.ofNat 16 f } }
  let (v, range, s) := s.curveValue curve code.toInt (bits b 18 16) (if ref = 3 then 0 else ref) s.icode
    (s.reg Reg.srvRref).toNat s.coldJunction s.survey.ptPar
  let status := if atRail then 2 else if range then 3 else if cj then 5 else 0
  let (d, pl) := s.midpoint
  let s := if atRail then s.event Reg.srvStat 11 else s
  let s := if cj then s.event Reg.srvStat 12 else s
  s.result p read status code (BitVec.ofInt 32 v) d pl

/-! ### The scan (13 R372, R373, R375) -/

/-- MODE: 1 single-cycle, 2 continuous, else stopped. -/
def State.srvMode (s : State) : Nat :=
  match s.fld Reg.srvCtl 2 1 with
  | 1 => 1
  | 2 => 2
  | _ => 0

/-- LEN as it acts. -/
def State.srvLen (s : State) : Nat := min 64 (s.fld1 Reg.srvScan 6 0)

/-- E5 serves. -/
def State.e5Up (s : State) : Bool := !(s.engine 5).restarting

/-- The multiplexer switches to a point. -/
def State.beginPoint (s : State) (p : Nat) (read : Bool) : State :=
  let t := s.takePoint p
  { t with survey := { t.survey with job := .settling p read } }

/-- POINT and COUNT of entry `i` of the scan table in effect. -/
def State.scanEntry (s : State) (i : Nat) : Nat × Nat :=
  let w := (s.survey.table.drop i).headD 0
  (bits w 5 0, bits w 23 8)

/-- The first entry from `i` on whose point is enabled. -/
def State.entryFrom (s : State) (i : Nat) : Option Nat :=
  (upto i (s.survey.len - i)).find? fun e => s.ptEn (s.scanEntry e).1

/-- Begins an entry: in continuous mode with 2 settling outputs, unless it goes on with the point before it, whose settings
have not changed (13 R373). -/
def State.beginEntry (s : State) (e : Nat) : State :=
  let (p, n) := s.scanEntry e
  let t := s.beginPoint p false
  let same := s.survey.onPoint == some p && t.survey.ptA == s.survey.ptA && t.survey.ptB == s.survey.ptB &&
    t.survey.ptPar == s.survey.ptPar
  { t with survey := { t.survey with
    entry := e, left := if n = 0 then none else some n, settleOuts := if same then 0 else 2 } }

/-- An entry goes on after an interruption, with 2 settling outputs and no further check (13 R373). -/
def State.resumeEntry (s : State) (p : Nat) : State :=
  let t := s.takePoint p
  { t with survey := { t.survey with job := .converting p false, onPoint := some p, settleOuts := 2 } }

/-- A pass starts with the scan settings written by now (13 R375, R376). One without an enabled entry takes no time: the next
one comes with its PERIOD, and with PERIOD = 0 the scan ends (notes/assumptions/27.md). -/
def State.startPass (s : State) : State :=
  let mode := s.srvMode
  let len := s.srvLen
  let t := { s with survey := { s.survey with
    mode := mode, len := len, period := s.fld Reg.srvScan 31 16, startAt := s.time.plumb
    table := (upto 0 len).map fun i => s.reg (Reg.srvScanEntry i)
    passDue := false, periodDue := false, stopReq := false } }
  let stop : State := { t with survey := { t.survey with passRun := false, scanOn := false, job := .idle } }
  if mode = 0 ∨ !bit (s.reg Reg.srvCtl) 0 then stop
  else match t.entryFrom 0 with
    | some e => { t with survey := { t.survey with passRun := true, scanOn := true } }.beginEntry e
    | none => if t.survey.period = 0 then stop
      else { t with survey := { t.survey with passRun := false, scanOn := true, job := .idle } }

/-- The pass has ended (13 R375). -/
def State.endPass (s : State) : State :=
  let t := { s with survey := { s.survey with passRun := false, job := .idle } }
  if s.survey.passDue || s.survey.period == 0 then t.startPass else t

/-- A self-calibration begins: every STALE bit is set (13 R385). -/
def State.beginSelfcal (s : State) : State :=
  let (f, s) := s.free
  let s := (upto 0 64).foldl (fun t k => t.setSrvRes k { t.srvRes k with status := (t.srvRes k).status ||| 0x80 }) s
  { s with survey := { s.survey with
    job := .selfCal, selfReq := false, onPoint := none, temp := BitVec.ofNat 16 f
    selfTemp := (BitVec.ofNat 16 f).toInt, selfAt := s.time.plumb } }

/-- What the converter does next, when it is free: a queued read, a self-calibration, the scan (13 R375, R385, R387).
`entryDone`: the entry in progress is finished. The scan advances only while E5 serves. -/
def State.surveyNext (s : State) (entryDone : Bool) : State :=
  let s := if entryDone then { s with survey := { s.survey with left := some 0 } } else s
  let v := s.survey
  let idle : State := { s with survey := { v with job := .idle } }
  match v.reads with
  | r :: _ => State.beginPoint { s with survey := { v with onPoint := none } } r.point true
  | [] =>
    if v.selfReq && bit (s.reg Reg.srvCtl) 0 then s.beginSelfcal
    else if !v.passRun then (if v.passDue && s.e5Up then s.startPass else idle)
    else if v.stopReq || !bit (s.reg Reg.srvCtl) 0 then
      -- a START written after the STOP begins the scan anew
      let t := { s with survey := { v with job := .idle, passRun := false, stopReq := false } }
      if v.passDue && s.e5Up then t.startPass else t
    else if !s.e5Up then idle
    else
      let next : State := match s.entryFrom (v.entry + 1) with
        | some e => s.beginEntry e
        | none => s.endPass
      let p := (s.scanEntry v.entry).1
      if v.left = some 0 || v.mode == 1 || !s.ptEn p then next else s.resumeEntry p

/-- After a conversion or an OPEN result: a read leaves the interrupted entry as it stands. -/
def State.afterResult (s : State) (read : Bool) : State := s.surveyNext (!read)

/-- SURVEY_SETTLING_END: the excitation check and the open test. `fault`: the compliance monitor reports a fault;
`openOver`: |v| exceeds 90 % of the span under the test current (13 R372, R377, R378). -/
def execSurveySettlingEnd (fault openOver : Bool) (s : State) : Host.Outcome State Fault Refusal :=
  match s.survey.job with
  | .settling p read =>
    let isOpen := if s.icode = 0 then bit s.survey.ptB 19 && openOver else fault
    .next (if isOpen then (s.openResult p read).afterResult read
      else { s with survey := { s.survey with
        job := .converting p read, onPoint := if read then none else some p } })
  | _ => .next s

/-- SURVEY_CONVERSION_END: a single-cycle conversion ends. -/
def execSurveyConversionEnd (code : BitVec 24) (s : State) : Host.Outcome State Fault Refusal :=
  match s.survey.job with
  | .converting p read =>
    whenDue s (read || s.survey.mode == 1) ((s.convResult p read code).afterResult read)
  | _ => .next s

/-- An output of a continuous entry (13 R373). -/
def State.surveyOutput (s : State) (p : Nat) (code : BitVec 24) : State :=
  let v := s.survey
  if 0 < v.settleOuts then
    let (d, pl) := s.midpoint
    let t := { s with survey := { v with settleOuts := v.settleOuts - 1 } }
    let t := if s.srvStream then t.streamSurvey p false 4 code 0 d pl else t
    if v.reads.isEmpty && !v.selfReq && !v.stopReq then t else t.surveyNext false
  else
    let t := s.convResult p false code
    let left := match v.left with
      | some n => some (n - 1)
      | none => none
    let t := { t with survey := { t.survey with left := left } }
    if left = some 0 then t.surveyNext true
    else if v.reads.isEmpty && !v.selfReq && !v.stopReq then t
    else t.surveyNext false

/-- SURVEY_OUTPUT: in continuous mode, one output each 1/R. -/
def execSurveyOutput (code : BitVec 24) (s : State) : Host.Outcome State Fault Refusal :=
  match s.survey.job with
  | .converting p read => whenDue s (!read && s.survey.mode == 2) (s.surveyOutput p code)
  | _ => .next s

/-- EXCITATION_FAULT: a compliance fault during a conversion ends it and posts OPEN; a continuous entry ends (13 R377). -/
def execExcitationFault (s : State) : Host.Outcome State Fault Refusal :=
  match s.survey.job with
  | .converting p read => whenDue s (s.icode != 0) ((s.openResult p read).afterResult read)
  | _ => .next s

/-- SURVEY_PASS_PERIOD: a periodic start falls due, at once or after the running pass (13 R375). -/
def execSurveyPassPeriod (s : State) : Host.Outcome State Fault Refusal :=
  let v := s.survey
  whenDue s (v.scanOn && !v.stopReq && v.period != 0 && !v.periodDue && v.startAt + v.period * 10 ^ 6 ≤ s.time.plumb)
    (if v.passRun then { s with survey := { v with passDue := true, periodDue := true } }.event Reg.srvStat 10
     else if v.job != .idle || !s.e5Up then { s with survey := { v with passDue := true, periodDue := true } }
     else s.startPass)

/-- A self-calibration is requested, PERIOD seconds of Plumb have passed since the last one, or SRV_TEMP has moved by more
than DT since (13 R385). -/
def State.selfcalAllowed (s : State) : Bool :=
  let per := s.fld Reg.srvSelfcal 15 0
  s.survey.selfReq || (per != 0 && s.survey.selfAt + per * 10 ^ 9 ≤ s.time.plumb) ||
    decide (s.fld Reg.srvSelfcal 23 16 < (s.survey.temp.toInt - s.survey.selfTemp).natAbs)

/-- SELFCAL_START: a self-calibration begins, or follows the conversion in progress and the queued reads. -/
def execSelfcalStart (s : State) : Host.Outcome State Fault Refusal :=
  whenDue s (bit (s.reg Reg.srvCtl) 0 && s.selfcalAllowed && s.survey.job != .selfCal)
    (if s.survey.job == .idle && s.survey.reads.isEmpty then s.beginSelfcal
     else { s with survey := { s.survey with selfReq := true } })

/-- SELFCAL_END: scanning and reads resume. -/
def execSelfcalEnd (s : State) : Host.Outcome State Fault Refusal :=
  let v := s.survey
  whenDue s (v.job == .selfCal)
    (State.surveyNext { s with survey := { v with job := .idle } } false)

/-- RESULT_STALE: the age of a point's result has reached `ageMs`, which exceeds SRV_STALE.AGE (13 R386). -/
def execResultStale (point ageMs : Nat) (s : State) : Host.Outcome State Fault Refusal :=
  let r := s.srvRes point
  whenDue s (point < 64 && r.postedAt.isSome && s.fld Reg.srvStale 15 0 < ageMs && ageMs ≤ s.srvAge point)
    (s.setSrvRes point { r with status := r.status ||| 0x80 })

/-! ### Commands and descriptors -/

/-- The read that is served has the converter (13 R387). -/
def State.readingNow (s : State) : Bool :=
  match s.survey.job with
  | .settling _ r | .converting _ r => r
  | _ => false

/-- EN is cleared: the scan's conversion or the self-calibration in progress ends without a result, and the scan with it; a
read keeps the converter powered (13 R387, Table 13.8; notes/assumptions/27.md). -/
def State.srvOff (s : State) : State :=
  let t := { s with survey := { s.survey with
    passRun := false, scanOn := false, passDue := false, periodDue := false, stopReq := false, selfReq := false
    onPoint := none } }
  if s.readingNow then t else State.surveyNext { t with survey := { t.survey with job := .idle } } false

/-- What a write to SRV_CTL does: EN, START, STOP, SELFCAL (13 R375, R385, Table 13.8). -/
def State.srvCtlWrite (s : State) (old v : Word) : State :=
  if bit old 0 && !bit v 0 then s.srvOff else
  let t := if bit v 0 && !bit old 0 then { s with survey := { s.survey with selfReq := true } } else s
  let t := if bit v 10 then { t with survey := { t.survey with selfReq := true } } else t
  let t := if t.survey.selfReq && bit v 0 && t.survey.job == .idle && t.survey.reads.isEmpty then t.beginSelfcal else t
  let t := if bit v 8 && t.srvMode != 0 then
      (if t.survey.passRun || t.survey.job != .idle || !t.e5Up then { t with survey := { t.survey with passDue := true, scanOn := true } }
       else t.startPass)
    else t
  if bit v 9 then
    (if t.survey.job == .idle || !t.survey.passRun then
      { t with survey := { t.survey with passRun := false, scanOn := false, passDue := false } }
     else { t with survey := { t.survey with stopReq := true, scanOn := false, passDue := false } })
  else t

/-- A write to the point under conversion, or to its parameter set, in continuous mode: the next outputs settle
(13 R373, R376). -/
def State.srvPointWrite (s : State) (p : Nat) : State :=
  match s.survey.job with
  | .converting q false | .settling q false =>
    if q = p && s.survey.mode == 2 then
      let t := s.takePoint p
      { t with survey := { t.survey with settleOuts := 2 } }
    else s
  | _ => s

/-- What an accepted SRV_READ does (13 R387). -/
def State.srvRead (s : State) (r : Nat) (f : Fetched) : State :=
  let b0 := f.body 0 1
  let b1 := f.body 1 1
  let p := b0 % 64
  if 64 ≤ b0 ∨ 2 ≤ b1 ∨ !f.zero 2 46 then s.finish r f Status.badDescriptor
  else if !s.ptEn p then s.finish r f Status.notFound
  else if 8 ≤ s.survey.reads.length then s.finish r f Status.noSlot
  else
    let op : SrvReadOp := ⟨r, f.sq, f.tag, p, b1 == 1, false⟩
    let t := { s with survey := { s.survey with reads := s.survey.reads ++ [op] } }
    if t.survey.job == .idle then t.surveyNext false else t

/-- SRV_READ. -/
def execSrvRead (ring : Nat) (s : State) : Host.Outcome State Fault Refusal :=
  acceptDesc ring (· == 0x30) (fun f t => t.srvRead ring f) s

/-- The low word of SRV_RESk: STATUS with STALE, and CODE (13 R383, R384). -/
def State.srvLow (s : State) (k : Nat) : Word :=
  let r := s.srvRes k
  place r.status.toNat 24 ||| bitAt 31 (s.srvStale k) ||| place r.code.toNat 0

/-- What an accepted SRV_DUMP does (13 R388). -/
def State.srvDump (s : State) (r : Nat) (f : Fetched) : State :=
  let addr := f.body 8 8
  let len := f.body 16 4
  if len < 1024 ∨ !f.zero 0 8 ∨ !f.zero 20 28 then s.finish r f Status.badDescriptor
  else if addr % 8 ≠ 0 then s.finish r f Status.badAddress
  else
    let data := (upto 0 64).flatMap fun k =>
      leBytes 4 (s.srvLow k).toNat ++ leBytes 4 (s.srvRes k).value.toNat ++ leBytes 4 (s.srvAge k) ++ leBytes 4 0
    let t := s.hostWrite 7 addr data
    t.commit r f.sq Status.ok f.tag false [] [(7, t.openSeq 7)] none

/-- SRV_DUMP; it waits while the class-7 share cannot take it. -/
def execSrvDump (ring : Nat) (s : State) : Host.Outcome State Fault Refusal :=
  match s.acceptNext ring with
  | some f =>
    match s.tryShare 7 0 fun t => t.acceptRun ring f fun f t => t.srvDump ring f with
    | some t => whenDue s (f.opcode == 0x31) t
    | none => .next s
  | none => .next s

end Sys2Proof.Machine
end

