-- ==== Sys2Proof/Machine/Memory.lean ====
section
/-!
DEFINITION. On-chip memory and integrity (14): the user area's windows, column repairs and patrol passes, preserving marches,
row repairs and the scrub, the upset log, dose, and the restart of engines.
-/

namespace Sys2Proof.Machine

open Sys2Proof

/-! ### The user area (14 R395, R396) -/

/-- Byte offset in the user area of word `w` of the aperture that a path has selected; none beyond the user area. -/
def State.winByte (s : State) (p : Path) (w : Nat) : Option Nat :=
  let a := 1024 * (s.path p).winAddr + 4 * (w % 256)
  if a + 4 ≤ 131072 then some a else none

/-- A word of the user area. -/
def State.userWord (s : State) (a : Nat) : Word :=
  BitVec.ofNat 32 (leNat ((upto a 4).map fun i => tabGet 0 s.mem.user i))

/-- Stores a word in the user area. -/
def State.setUserWord (s : State) (a : Nat) (v : Word) : State :=
  { s with mem := { s.mem with
      user := ((upto a 4).zip (leBytes 4 v.toNat)).foldl (fun t q => tabSet 0 t q.1 q.2) s.mem.user } }

/-- A read through an aperture; beyond the user area it returns 0 and sets WIN_ERR. -/
def State.winRead (s : State) (p : Path) (w : Nat) : Word × State :=
  match s.winByte p w with
  | some a => (s.userWord a, s)
  | none => (0, s.event Reg.memStat 10)

/-- A write through an aperture: `f` is what it makes of the word; beyond the user area it is ignored and sets WIN_ERR. -/
def State.winWrite (s : State) (p : Path) (w : Nat) (f : Word → Word) : State :=
  match s.winByte p w with
  | some a => s.setUserWord a (f (s.userWord a))
  | none => s.event Reg.memStat 10

/-! ### Banks (14 R392, R403, R406) -/

/-- The macro of MEM_SLEEP that a bank is, if any (14 Table 14.7). -/
def sleepMacro (b : Nat) : Option Nat :=
  if 48 ≤ b ∧ b < 64 then some (b - 48) else if 45 ≤ b ∧ b < 48 then some (b - 45 + 16) else none

/-- A bank in retention. -/
def State.inRetention (s : State) (b : Nat) : Bool :=
  match sleepMacro b with
  | some m => memNat s.mem.asleep m
  | none => false

/-- The operation of a MEM_REPAIR that has taken effect completes (14 R412). -/
def State.repairDone (s : State) (kind bank target : Nat) : State :=
  let hit (o : RepairOp) : Bool := o.kind == kind && o.bank == bank && o.target == target
  let ops := s.mem.repairs.filter hit
  let t := { s with mem := { s.mem with repairs := s.mem.repairs.filter fun o => !hit o } }
  ops.foldl (fun t o => t.commit o.ring o.sq Status.ok o.tag false [] [] none) t

/-- At the end of the pass that began after its selection, reads are taken from the redundant column: the repair is logged,
recorded in the settings area and sets REPAIR_EVT (14 R406). -/
def State.endColumn (s : State) (b column : Nat) : State :=
  let k := s.bank b
  let t := s.setBank b { k with
    repairs := k.repairs.filter fun q => q.1 != column, used := k.used + 1, columns := k.columns ++ [column] }
  let t := { t with fw := { t.fw with settings := { t.fw.settings with
    columns := t.fw.settings.columns ++ [(b, column)] } } }
  ((t.event Reg.memStat 3).logUpset 0x0A b 0 0 column).repairDone 1 b column

/-! ### Restart of an engine (14 R416 to R418; 15 R420) -/

/-- Operations that are in progress on a restarting engine: their completions will carry RESUMED (15 R420). -/
def State.markResumed (s : State) (l : List (Nat × Nat)) : State :=
  { s with ctl := { s.ctl with resumed := s.ctl.resumed ++ l } }

/-- Descriptors with an opcode whose acceptance waits for what has been read for them. -/
def State.prepsOf (s : State) (opcode : Nat) : List (Nat × Nat) :=
  (s.ctl.preps.filter fun p => (s.ring p.ring).fetched.any fun f => f.sq == p.sq && f.opcode == opcode).map
    fun p => (p.ring, p.sq)

/-- The servo goes on with the parameters it has (01 Table 1.3, 15 Table 15.1). -/
def State.holdServo (s : State) : State :=
  if s.servo.held then s
  else
    let t := [Reg.timeServoCtl, Reg.timeServoGain, Reg.timeServoLim, Reg.timeServoThr, Reg.timePhaseTgt, Reg.timeFibreAsym,
      Reg.timeFibreAsymB].foldl (fun t a => t.setEff a (t.reg a)) s
    { t with servo := { t.servo with held := true } }

/-- What a restart does to the work of the engine: operations in flight carry RESUMED, and a Backsight step in progress is
repeated (15 Table 15.1; 04 R130). -/
def State.restartWork (s : State) (k : Nat) : State :=
  match k with
  | 1 => State.markResumed { s with hist := { s.hist with recalls := s.hist.recalls.map fun r =>
      { r with resumed := true } } } (s.prepsOf 0x20)
  | 3 => State.holdServo { s with stakes := s.stakes.map fun q => { q with resumed := true } }
  | 4 => (upto 0 32).foldl (fun t j =>
      let st := t.stn j
      match st.job with
      | some job => t.setStn j { st with job := some { job with discard := true } }
      | none => t) s
  | 5 => { s with survey := { s.survey with reads := s.survey.reads.map fun r => { r with resumed := true } } }
  | 6 =>
    let copying : List Stake := match s.fw.act with
      | some a => if a.copied then [] else s.stakes.filter fun (q : Stake) => q.sid == a.sid
      | none => []
    State.markResumed { s with fw := { s.fw with chunkOps := s.fw.chunkOps.map fun c => { c with resumed := true } } }
      (s.prepsOf 0x40 ++ s.mem.repairs.map (fun (o : RepairOp) => (o.ring, o.sq)) ++
        copying.map fun (q : Stake) => (q.ring, q.sq))
  | 7 => { s with brix := { s.brix with waits := s.brix.waits.map fun w => { w with resumed := true } } }
  | _ => s

/-! ### The image switch and its fall-back (15 R432, R433) -/

/-- PAYLOAD_LEN, VERSION, SEC_VERSION and DIGEST of a header (15 Table 15.3). -/
def hdrPayload (h : List Byte) : Nat := le h 16 4
def hdrVersion (h : List Byte) : Nat := le h 8 4
def hdrSec (h : List Byte) : Nat := le h 12 4
def hdrDigest (h : List Byte) : List Byte := bytesAt h 24 32
def hdrRevoke (h : List Byte) : Nat := byteAt h 3
def hdrKey (h : List Byte) : Nat := byteAt h 20

/-- A checkpoint goes to the slot that is not the newer one (14 R417). -/
def Engine.checkpoint (e : Engine) : Engine :=
  if e.ckptNew = 0 then { e with ckptNew := 1, ckpt1 := true } else { e with ckptNew := 0, ckpt0 := true }

/-- The slot written last, and the other one, hold a valid checkpoint (14 R417). -/
def Engine.newestValid (e : Engine) : Bool := if e.ckptNew = 0 then e.ckpt0 else e.ckpt1
def Engine.olderValid (e : Engine) : Bool := if e.ckptNew = 0 then e.ckpt1 else e.ckpt0

/-- The hand-over checkpoint of an engine that serves; what the image then leaves is kept for a fall-back (15 Table 15.5, R433). -/
def Engine.handsOver (e : Engine) : Engine :=
  let e := if e.running && !e.restarting then e.checkpoint else e
  { e with handOver := (e.ckptNew, e.ckpt0, e.ckpt1) }

/-- The checkpoints that the previous image wrote are the ones to take up (15 R433). -/
def Engine.takesBack (e : Engine) : Engine :=
  { e with ckptNew := e.handOver.1, ckpt0 := e.handOver.2.1, ckpt1 := e.handOver.2.2 }

/-- Every engine switches to its other code region, with the checkpoints that `f` leaves it; a switching engine counts as
restarting (15 R432, R433). -/
def State.switchEngines (s : State) (f : Engine → Engine) : State :=
  let t := (upto 0 8).foldl (fun t k =>
    let e := f (t.engine k)
    (t.setEngine k { e with
      restarting := e.running, region := 1 - e.region
      switchedAt := if e.running then some s.time.now else none }).restartWork k) s
  { t with brix := { t.brix with evidence := t.brix.evidence ||| 2 } }

/-- An engine has not reached step 4 of the switch 20 µs after its target (15 R433). -/
def State.switchLate (s : State) (k : Nat) : Bool :=
  match (s.engine k).switchedAt with
  | some t => t + s.micros 20 < s.time.now
  | none => false

/-- The image of a slot runs from now on. -/
def State.runImage (s : State) (i : Nat) : State :=
  let h := (s.slot i).header
  { s with fw := { s.fw with
      runSlot := i, runVer := hdrVersion h, runSec := hdrSec h, runDigest := hdrDigest h
      runRevoke := BitVec.ofNat 4 (hdrRevoke h) } }

/-- The previous image, held in the other code regions whatever its slot holds by now, runs again. -/
def State.runPrevious (s : State) : State :=
  let w := s.fw
  { s with fw := { w with
      runSlot := w.prevSlot, runVer := w.prevVer, runSec := w.prevSec, runDigest := w.prevDigest, runRevoke := w.prevRevoke } }

/-- The fall-back of a probation: the engines switch to the previous image, and the failed slot is BAD (15 R433). -/
def State.fallback (s : State) : State :=
  let failed := s.fw.runSlot
  let t := (s.switchEngines Engine.takesBack).runPrevious
  let t := (t.setSlot failed { t.slot failed with st := .bad }).event Reg.fwStat 8
  let t := if failed = 0 then t.event Reg.fwStat 10 else t
  { t with fw := { t.fw with probation := false, fellBack := true, fallbackSinceReset := true } }

/-- A preserving March C− of an engine's whole bank (14 R418). -/
def stormMarch (k : Nat) : March := ⟨68 + k, 0, 0, 8192, 0, 0, 0, none, false⟩

/-- Queues a march behind the one that runs. -/
def State.queueMarch (s : State) (m : March) : State :=
  match s.mem.march with
  | none => { s with mem := { s.mem with march := some m } }
  | some _ => { s with mem := { s.mem with marchQueue := s.mem.marchQueue ++ [m] } }

/-- An engine restarts: it is counted and logged, sets LOCKSTEP_EVT, and the third restart within 1 s sets LOCKSTEP_STORM
and queues a march of its bank (14 R416, R418; 12 R359); during probation the hub then falls back (15 R433). -/
def State.restartEngine (s : State) (k : Nat) : State :=
  let e := s.engine k
  let sec := s.seconds 1
  let storm := match e.recent with
    | [_, t] => decide (s.time.now ≤ t + sec)
    | _ => false
  let t := s.setEngine k { e with
    restarting := true
    restarts := satInc 0xFF e.restarts
    recent := (s.time.now :: e.recent).take 2 }
  let t := ((t.logUpset 0x06 k 0 0 0).event Reg.memStat 5).restartWork k
  let t := { t with brix := { t.brix with evidence := t.brix.evidence ||| 2 } }
  if storm then
    let t := (t.event Reg.memStat 6).queueMarch (stormMarch k)
    if t.fw.probation then t.fallback else t
  else t

/-- A voter finds one of three copies different: the vote corrects it, and it is counted and logged (14 Table 14.3, R413). -/
def State.voted (s : State) (island : Nat) : State :=
  ({ s with mem := { s.mem with tmrCnt := satInc 0xFFFFFFFF s.mem.tmrCnt } }).logUpset 5 island 0 0 0

/-- LOCKSTEP_MISMATCH: the two cores of an engine disagree; during a restart the sequence starts over (14 R416, R418). The table
has no row for the copies of a flip-flop that disagree, which this command brings as well (notes/assumptions/28.md). -/
def execLockstepMismatch (d : Disagreement) (s : State) : Host.Outcome State Fault Refusal :=
  match d with
  | .cores k => whenDue s (k < 8 && (s.engine k).running) (s.restartEngine k)
  | .voter i => whenDue s (i < 47 && s.power.phase != .rails) (s.voted i)

/-- CHECKPOINT: every engine in service writes its checkpoint to the slot that is not the newer one (14 R417). -/
def State.checkpoint (s : State) : State :=
  (upto 0 8).foldl (fun t k =>
    let e := t.engine k
    if e.running && !e.restarting then t.setEngine k e.checkpoint else t) s

/-- The reads of chunks that wait are issued as far as 64 may be outstanding (11 R315). -/
def State.readWaiting (s : State) : State :=
  s.fw.chunkOps.foldl (fun t c =>
    if c.toRead && t.engineUp 6 && t.readFree then
      { t with fw := { t.fw with chunkOps := t.fw.chunkOps.map fun (d : ChunkOp) =>
        if d.oid == c.oid then { d with toRead := false } else d } }.issueRead c.addr c.len (.fwChunk c.oid)
    else t) s

/-- The read of a chunk has ended: the chunk is written and the descriptor completes, or it completes BAD_ADDRESS and the
next descriptor for the same chunk reads it. -/
def State.writeChunk (s : State) (oid : Nat) (data : Option (List Byte)) : State :=
  match s.fw.chunkOps.find? fun c => c.oid == oid with
  | none => s
  | some c =>
    let rest := s.fw.chunkOps.filter fun d => d.oid != oid
    let same (d : ChunkOp) : Bool := d.slot == c.slot && d.offset == c.offset
    match data with
    | some b =>
      let q := s.slot c.slot
      let q := { q with
        payload := ((upto c.offset b.length).zip b).foldl (fun t e => tabSet 0 t e.1 e.2) q.payload
        chunks := insNat q.chunks c.offset }
      let t := ({ s with fw := { s.fw with chunkOps := rest.filter fun d => !same d } }).setSlot c.slot q
      let t := t.commit c.ring c.sq Status.ok c.tag c.resumed [0] [] none
      (rest.filter same).foldl (fun t d => t.commit d.ring d.sq Status.ok d.tag d.resumed [1] [] none) t
    | none =>
      let next := (rest.find? same).map (·.oid)
      let mark (d : ChunkOp) : ChunkOp := if next.any (· == d.oid) then { d with toRead := true } else d
      let t := { s with fw := { s.fw with chunkOps := rest.map mark } }
      (t.commit c.ring c.sq Status.badAddress c.tag c.resumed [] [] none).readWaiting

/-- The read of a chunk has ended; while E6 is in a restart its data waits (01 Table 1.3, 15 Table 15.1). -/
def State.chunkRead (s : State) (oid : Nat) (data : Option (List Byte)) : State :=
  if s.engineUp 6 then s.writeChunk oid data
  else { s with fw := { s.fw with chunkOps := s.fw.chunkOps.map fun c =>
    if c.oid == oid then { c with arrived := some data, resumed := true } else c } }

/-- E6 is back: the chunks whose data came meanwhile are written whole, in the order of their descriptors. -/
def State.resumeChunks (s : State) : State :=
  s.fw.chunkOps.foldl (fun t c => match c.arrived with
    | some d => t.writeChunk c.oid d
    | none => t) s

/-- The restarted engine goes on with its work (15 Table 15.1): E0 issues outstanding fetch reads again under 11 R315, E5 goes on
with the scan (13 R386), E6 with the chunks that have come, E7 with what has come and what waits to be sent (12 R357). -/
def State.resumeWork (s : State) (k : Nat) : State :=
  match k with
  | 0 => (s.ctl.reads.filter fun q => match q.use with
      | .fetch _ _ _ _ => true
      | _ => false).foldl (fun t q =>
        let t := t.placeRead q.rtag q.addr q.len
        { t with ctl := { t.ctl with
            rdRetry := satInc 0xFFFF t.ctl.rdRetry
            reads := t.ctl.reads.map fun p =>
              if p.rtag == q.rtag then { p with issuedAt := t.time.now, reissues := p.reissues + 1 } else p } }) s
  | 5 => if s.survey.job = .idle then s.surveyNext false else s
  | 6 => s.resumeChunks
  | 7 => s.e7Resume
  | _ => s

/-- ENGINE_RESUME: the latest checkpoint is loaded, or the older one with CKPT_OLD; with neither the firmware image is
loaded again; service resumes (14 Table 14.6, R417; 15 R420). `newestOk` and `olderOk` say whether a slot that holds a
checkpoint passes its check. With neither, the image is loaded again from its slot and neither slot is valid; during probation
that is a fall-back instead, and so are a start check that the engine's firmware fails and an engine that comes later than 20 µs
after the target of its switch (15 R433). Outside probation an engine that fails its start check stays in its restart: DESIGN
CHOICE (notes/assumptions/117.md). -/
def State.engineResume (s : State) (q : EngineStart) (newestOk olderOk : Bool) : State :=
  let k := q.engine
  let e := s.engine k
  let newest := newestOk && e.newestValid
  let older := olderOk && e.olderValid
  if s.fw.probation && ((!newest && !older) || !q.startOk || s.switchLate k) then s.fallback
  else if !q.startOk then s
  else
    let e := { e with restarting := false, switchedAt := none }
    let t := s.setEngine k (if newest || older then e else { e with ckpt0 := false, ckpt1 := false })
    (if !newest && older then t.event Reg.memStat 7 else t).resumeWork k

/-- ENGINE_RESUME. -/
def execEngineResume (e : EngineStart) (newestOk olderOk : Bool) (s : State) : Host.Outcome State Fault Refusal :=
  whenDue s (e.engine < 8 && (s.engine e.engine).running && (s.engine e.engine).restarting)
    (s.engineResume e newestOk olderOk)

/-! ### Patrol (14 R402) -/

/-- A corrected error enters its column's count of distinct words in this pass. -/
def noteColumn (cols : List (Nat × List Nat)) (column addr : Nat) : List (Nat × List Nat) :=
  if cols.any fun c => c.1 == column then
    cols.map fun c => if c.1 == column then (c.1, insNat c.2 addr) else c
  else cols ++ [(column, [addr])]

/-- Words of a column that yielded corrected errors in this pass. -/
def columnWords (cols : List (Nat × List Nat)) (column : Nat) : Nat :=
  match cols.find? fun c => c.1 == column with
  | some c => c.2.length
  | none => 0

/-- The line that a march tests now, of a bank. -/
def State.lineUnderTest (s : State) (b addr : Nat) : Bool :=
  match s.mem.march with
  | some m => m.bank == b && m.next == addr / 8
  | none => false

/-- A pass ends and the next begins: a repair selected in an earlier pass than this one takes effect, one selected in this
pass has its pass begin (14 R406). -/
def State.patrolPassEnd (s : State) : State :=
  (upto 0 64).foldl (fun t b =>
    let k := t.bank b
    let t := t.setBank b { k with cols := [], repairs := k.repairs.map fun q => (q.1, q.2 + 1) }
    (k.repairs.filter fun q => 0 < q.2).foldl (fun t q => t.endColumn b q.1) t)
    { s with mem := { s.mem with patrolAt := s.time.now } }

/-- The PERIOD of the present patrol pass has run out; a PERIOD of 0 acts as 1 ms (14 R402). -/
def State.patrolDue (s : State) : Bool :=
  s.mem.patrolAt + s.millis (max 1 (s.fld Reg.memPatrol 15 0)) ≤ s.time.now

/-- PATROL_PASS_END: once in each MEM_PATROL.PERIOD (14 R402). -/
def execPatrolPassEnd (s : State) : Host.Outcome State Fault Refusal :=
  whenDue s (bit (s.reg Reg.memCtl) 3 && s.past .memtest && s.patrolDue) s.patrolPassEnd

/-! ### Preserving marches (14 R403, R405) -/

/-- The march that runs ends: its descriptor completes, and the next queued one begins. -/
def State.endMarch (s : State) (m : March) : State :=
  let next := s.mem.marchQueue
  let t := { s with mem := { s.mem with march := next.head?, marchQueue := next.drop 1 } }
  match m.op with
  | some (r, sq, tag) =>
    let status := if m.aborted then Status.aborted
      else if m.failing = m.retired then Status.ok else Status.dataError
    t.commit r sq status tag false (leBytes 4 m.tested ++ leBytes 4 m.failing ++ leBytes 2 m.retired ++
      leBytes 2 (t.spareLeft m.bank) ++ leBytes 4 0) [] none
  | none => t

/-- One line tested: a failing line is logged, and retired to a spare line when AUTO_LINE = 1 (14 R403). -/
def State.marchLine (s : State) (m : March) (pass : Bool) : State :=
  let auto := !pass && bit (s.reg Reg.memCtl) 0
  let room := 0 < s.spareLeft m.bank
  let t := if pass then s else s.logUpset 0x09 m.bank (8 * m.next) 0 0
  let t :=
    if auto then
      if room then
        let k := t.bank m.bank
        ((t.setBank m.bank { k with used := k.used + 1, lines := k.lines ++ [m.next] }).event Reg.memStat 3).logUpset
          0x0C m.bank (8 * m.next) 0 0
      else t.event Reg.memStat 4
    else t
  let m := { m with
    next := m.next + 1, left := m.left - 1, tested := m.tested + 1
    failing := if pass then m.failing else m.failing + 1
    retired := if auto && room then m.retired + 1 else m.retired }
  if m.left = 0 ∨ m.aborted then t.endMarch m else { t with mem := { t.mem with march := some m } }

/-- MARCH_LINE: the march engine tests the next line; it pauses while the engine of the bank restarts. `pass`: the line's
words passed the algorithm. -/
def execMarchLine (pass : Bool) (s : State) : Host.Outcome State Fault Refusal :=
  match s.mem.march with
  | some m => whenDue s (!(68 ≤ m.bank && (s.engine (m.bank - 68)).restarting)) (s.marchLine m pass)
  | none => .next s

/-- An accepted MEM_MARCH (14 R405). -/
def State.memMarch (s : State) (r : Nat) (f : Fetched) : State :=
  let bank := f.body 0 1
  let alg := f.body 1 1
  let first := f.body 4 4
  let count := f.body 8 4
  let n := if count = 0 then 8192 else count
  let bad := bank < 64 || 75 < bank || 1 < alg || !f.zero 2 2 || !f.zero 12 36 ||
    (if count = 0 then 8191 < first else 8192 < first + count)
  let start := if count = 0 then 0 else first
  if bad then s.finish r f Status.badDescriptor
  else if s.mem.march.isSome then s.finish r f Status.noSlot
  else { s with mem := { s.mem with march := some ⟨bank, alg, start, n, 0, 0, 0, some (r, f.sq, f.tag), false⟩ } }

/-- MEM_MARCH. -/
def execMemMarch (ring : Nat) (s : State) : Host.Outcome State Fault Refusal :=
  acceptDesc ring (· == 0x50) (fun f t => t.memMarch ring f) s

/-! ### The upset log (14 R414) -/

/-- An accepted MEM_LOG_READ: entries from FROM_SEQ onward, oldest first; the entries written count as read. With no entry
to write, what the RESULT gives as the LSEQ of the first is not stated and is free (notes/assumptions/28.md). -/
def State.memLogRead (s : State) (r : Nat) (f : Fetched) : State :=
  let from_ := f.body 0 4
  let count := f.body 4 2
  let addr := f.body 8 8
  let len := f.body 16 4
  if count = 0 ∨ 1024 < count ∨ len < 32 * count ∨ !f.zero 6 2 ∨ !f.zero 20 28 then s.finish r f Status.badDescriptor
  else if addr % 8 ≠ 0 then s.finish r f Status.badAddress
  else
    let m := s.mem
    let held := m.log.length
    let oldest := (m.lseq + 2 ^ 32 - held) % 2 ^ 32
    let ahead := sext 32 (from_ + 2 ^ 32 - oldest)
    let skip := if ahead < 0 then 0 else min held ahead.toNat
    let first := if ahead < 0 then oldest else from_
    let n := min count (held - skip)
    let recs := (m.log.reverse.drop skip).take n
    let keep := held - skip - n
    let t := { s with mem := { m with
      log := m.log.zipIdx.map fun (q : (List Byte × Bool) × Nat) => if keep ≤ q.2 ∧ q.2 < keep + n then (q.1.1, true) else q.1 } }
    let t := t.hostWrite 7 addr (recs.flatMap Prod.fst)
    let (q, t) := if n = 0 then t.free else (first, t)
    let needs := if n = 0 then [] else [(7, t.openSeq 7)]
    t.commit r f.sq Status.ok f.tag false
      (leBytes 2 n ++ leBytes 2 0 ++ leBytes 4 q ++ leBytes 4 ((first + n) % 2 ^ 32)) needs none

/-- MEM_LOG_READ: it waits while the class-7 share cannot take the entries (10 Table 10.5). -/
def execMemLogRead (ring : Nat) (s : State) : Host.Outcome State Fault Refusal :=
  match s.acceptNext ring with
  | some f =>
    match s.tryShare 7 0 fun t => t.acceptRun ring f fun f t => t.memLogRead ring f with
    | some t => whenDue s (f.opcode == 0x51) t
    | none => .next s
  | none => .next s

/-! ### Repairs that the host asks for, and rows (14 R410 to R412) -/

/-- An accepted MEM_REPAIR (14 R412). Which columns and rows exist is a property of the part. -/
def State.memRepair (s : State) (r : Nat) (f : Fetched) : State :=
  let kind := f.body 0 1
  let bank := f.body 1 1
  let column := f.body 4 4
  let row := f.body 8 8
  let wait (target : Nat) (t : State) : State :=
    { t with mem := { t.mem with repairs := t.mem.repairs ++ [⟨kind, r, f.sq, f.tag, bank, target⟩] } }
  if kind = 1 then
    if 63 < bank ∨ !f.zero 2 2 ∨ !f.zero 8 40 then s.finish r f Status.badDescriptor
    else if !Config.columnExists column then s.finish r f Status.notFound
    else if s.spareLeft bank = 0 ∨ (upto 0 64).any (fun b => !(s.bank b).repairs.isEmpty) then s.finish r f Status.noSlot
    else wait column (s.beginColumn bank column)
  else if kind = 2 then
    if !f.zero 1 7 ∨ !f.zero 16 32 then s.finish r f Status.badDescriptor
    else if !Config.rowExists row then s.finish r f Status.notFound
    else if s.spareRow row = 0 ∨ s.mem.redirect.isSome then s.finish r f Status.noSlot
    else wait row { s with mem := { s.mem with redirect := some row } }
  else s.finish r f Status.badDescriptor

/-- MEM_REPAIR. -/
def execMemRepair (ring : Nat) (s : State) : Host.Outcome State Fault Refusal :=
  acceptDesc ring (· == 0x52) (fun f t => t.memRepair ring f) s

/-- The next weak row that waits is redirected; one without a spare row stays in use. -/
def State.nextRow (s : State) : List Nat → State
  | [] => s
  | row :: rest =>
    let t := { s with mem := { s.mem with rowQueue := rest } }.redirectRow row
    if t.mem.redirect.isNone then t.nextRow rest else t

/-- A redirected row has been repaired softly and written back: the redirection ends, the repair is logged, counted and
recorded in the settings area, from which the next start-up makes it hard, and the next weak row follows (14 R410, R411). -/
def State.rowRepaired (s : State) : State :=
  match s.mem.redirect with
  | some row =>
    let g := Config.rowGroup row
    let m := s.mem
    let t := { s with
      mem := { m with
        redirect := none, softRepairs := satInc 0xFF m.softRepairs, pendingHard := satInc 0xFF m.pendingHard
        spareRows := listSet m.spareRows g ((m.spareRows.drop g).headD 0 - 1)
        weakRows := m.weakRows.filter fun w => w.1 != row }
      fw := { s.fw with settings := { s.fw.settings with rows := s.fw.settings.rows ++ [row] } } }
    let t := ((t.event Reg.memStat 3).logUpset 0x0B 0 row 0 0).repairDone 2 0 row
    t.nextRow t.mem.rowQueue
  | none => s

/-- A scrub read that finds a burst of the retained region beyond correction: the two entries of the block index that it holds are
rebuilt, or a block held in pin space is in error. Which block of pin space holds a burst no rule says: a free value names
one of those held, or none (07 Table 7.1; 14 R401, R409; notes/assumptions/28.md). -/
def State.scrubLoss (s : State) (ecc : EccResult) : State :=
  let k := s.hist.scrubBytes / 16
  if ecc != .uncorrectable then s
  else if s.hist.scrubBytes < 16 * 2 ^ 20 then
    [k, k + 1].foldl (fun t k => t.rebuildEntry (k / 32) (k % 32) false false) s
  else
    let (f, t) := s.free
    match s.hist.pinBlocks.drop (f % (s.hist.pinBlocks.length + 1)) with
    | (key, some _) :: _ => t.noteBlockError (key / 32) (key % 32) none
    | _ => t

/-- SCRUB_READ: bursts of the retained region are read, and corrected ones written back (07 R237, 14 R408). A row repair
that began before this read has taken effect by now (notes/assumptions/28.md). -/
def State.scrubRead (s : State) (bytes row : Nat) (ecc : EccResult) : State :=
  let debt := s.inDebt
  let next := if debt then max s.time.now s.hist.scrubNext + ceilDiv bytes 512 else s.hist.scrubNext
  let t := (s.rowRepaired.stackCheck ecc row (some s.hist.scrubNo)).scrubLoss ecc
  let h := t.hist
  let n := min retainedBytes (h.scrubBytes + bytes)
  let full := n = retainedBytes ∧ h.scrubBytes < retainedBytes
  State.noteDebt { t with hist := { h with
      scrubBytes := n, scrubPasses := if full then (h.scrubPasses + 1) % 65536 else h.scrubPasses
      scrubNext := next } }

/-- SCRUB_READ: at rank 2 in the slots that a scrub in debt claims, else at rank 5, when no fragment read, recall or copy waits
(07 R236). -/
def execScrubRead (bytes row : Nat) (ecc : EccResult) (s : State) : Host.Outcome State Fault Refusal :=
  whenDue s (s.scrubUp && (s.scrubClaims || (!s.fragmentWaits && s.nextTurn.isNone))) (s.scrubRead bytes row ecc)

/-- SCRUB_PASS_END: the period ends; a pass that is not finished sets SCRUB_LATE_EVT, and the next pass begins
(07 R237). -/
def execScrubPassEnd (s : State) : Host.Outcome State Fault Refusal :=
  let late := s.hist.scrubBytes < retainedBytes
  let t := if late then s.event Reg.hisStat 2 else s
  whenDue s (s.past .stack && s.hist.scrubStart + s.scrubPeriod ≤ s.time.now)
    { t with hist := { t.hist with
        scrubBytes := 0, scrubNo := t.hist.scrubNo + 1, scrubStart := t.time.now, scrubDebt := false } }

/-! ### Dose (14 R415) -/

/-- A posting of the largest dose and fluence: DOSE_WARN_EVT when either first reaches its threshold. -/
def State.doseRead (s : State) (dose fluence : Nat) : State :=
  let d := dose % 2 ^ 24
  let f := fluence % 2 ^ 24
  let m := s.mem
  let hitD := decide (10 * s.fld Reg.memDoseWarn 15 0 ≤ d)
  let hitF := decide (10 * s.fld Reg.memDoseWarn 31 16 ≤ f)
  let t := { s with mem := { m with
    dose := d, fluence := f, doseAt := some s.time.now, doseWarned := m.doseWarned || hitD, fluWarned := m.fluWarned || hitF } }
  if (hitD && !m.doseWarned) || (hitF && !m.fluWarned) then t.event Reg.memStat 8 else t

/-- Control work waits for E6: the check and copy of an FW_ACTIVATE, or a descriptor of an image session, an update, an identity
operation, the upset log or a repair that is next to be accepted (01 R30, Table 1.3). -/
def State.e6Waits (s : State) : Bool :=
  (match s.fw.act with
    | some a => !a.copied
    | none => false) ||
  (upto 0 32).any fun r => match s.acceptNext r with
    | some f => memNat [0x40, 0x41, 0x42, 0x43, 0x44, 0x48, 0x49, 0x51, 0x52] f.opcode
    | none => false

/-- A second has passed since E6 last read the monitors (14 R415). -/
def State.doseDue (s : State) : Bool :=
  match s.mem.doseAt with
  | some a => a + s.seconds 1 ≤ s.time.now
  | none => true

/-- DOSE_READ: once per second E6 reads the monitors, after the control work that waits for it (14 R415; 01 R30); `dose` in
0.1 Gy(Si), `fluence` in 10⁹ cm⁻². -/
def execDoseRead (dose fluence : Nat) (s : State) : Host.Outcome State Fault Refusal :=
  whenDue s (s.engineUp 6 && s.doseDue && !s.e6Waits) (s.doseRead dose fluence)

end Sys2Proof.Machine
end

