-- ==== Sys2Proof/Machine/Firmware.lean ====
section
/-!
DEFINITION. Firmware images (15): the header check, update sessions, activation, fallback and commit.
-/

namespace Sys2Proof.Machine

open Sys2Proof

/-! ### Image headers (15 R424, R425) -/

/-- Step 1 of R425: the fields that Table 15.3 fixes. -/
def hdrForm (h : List Byte) : Bool :=
  h.length == 256 && le h 0 2 == 0x5E1A && byteAt h 2 == 1 && hdrRevoke h < 16 && le h 4 4 == 0x512 &&
    256 ≤ hdrPayload h && hdrPayload h ≤ 16776960 && hdrPayload h % 256 == 0 && hdrKey h < 4 && le h 21 3 == 0 &&
    allZero (bytesAt h 56 136)

/-- The header check (15 R425): none when it passes, else the status of the first failure. FW_MIN_SEC and revocation do not
apply to the `golden` slot (15 R435, R440). -/
def State.headerCheck (s : State) (golden : Bool) (h : List Byte) : Option Nat :=
  if !hdrForm h then some Status.hdrReject
  else if (!golden && hdrSec h < s.fw.minSec) || Nat.testBit (hdrRevoke h) (hdrKey h) then some Status.hdrReject
  else if (!golden && s.fw.revoked.getLsbD (hdrKey h)) || !Config.sigOk (hdrKey h) (h.take 192) (h.drop 192) then
    some Status.sigFail
  else none

/-- The header check of an image offered in service. -/
def State.headerFails (s : State) (h : List Byte) : Option Nat := s.headerCheck false h

/-- What is checked of the golden slot's header at start-up: MARK, FORMAT and PART_ID (15 R435). -/
def hdrGolden (h : List Byte) : Bool := le h 0 2 == 0x5E1A && byteAt h 2 == 1 && le h 4 4 == 0x512

/-- Chunks that a payload needs. -/
def hdrChunks (h : List Byte) : Nat := ceilDiv (hdrPayload h) 4096

/-- The payload as a slot holds it. -/
def Slot.bytes (q : Slot) : List Byte := (upto 0 (hdrPayload q.header)).map fun i => tabGet 0 q.payload i

/-- The payload's digest is the header's. -/
def Slot.digestOk (q : Slot) : Bool := sha256 q.bytes == hdrDigest q.header

/-! ### Update sessions (15 R426 to R429) -/

/-- A slot that holds nothing. -/
def State.emptySlot (s : State) (i : Nat) : State := s.setSlot i .init

/-- The RESULT of FW_OPEN. -/
def sessionResult (i : Nat) (joined : Bool) (q : Slot) : List Byte :=
  leBytes 1 i ++ leBytes 1 (if joined then 1 else 0) ++ leBytes 2 0 ++ leBytes 4 (hdrChunks q.header) ++
    leBytes 4 q.chunks.length

/-- FW_OPEN with its header read: the check, and Table 15.4. -/
def State.openSession (s : State) (r : Nat) (f : Fetched) (h : List Byte) : State :=
  let i := f.body 0 1
  let q := s.slot i
  let ok (joined : Bool) (t : State) : State :=
    t.commit r f.sq Status.ok f.tag false (sessionResult i joined (t.slot i)) [] none
  match s.headerFails h with
  | some st => s.finish r f st
  | none =>
    if s.fw.runSlot == i || (s.fw.act.any fun a => a.slot == i) then s.finish r f Status.noSlot
    else if q.st = .open_ then
      if hdrDigest q.header = hdrDigest h then ok true s else s.finish r f Status.busyOther
    else ok false (s.setSlot i { Slot.init with st := .open_, header := h, since := s.time.now })

/-- What a FW_OPEN descriptor gets wrong before its header is read. -/
def fwOpenBad (f : Fetched) : Option Nat :=
  let i := f.body 0 1
  if (i ≠ 1 ∧ i ≠ 2) ∨ !f.zero 1 7 ∨ !f.zero 16 32 then some Status.badDescriptor
  else if f.body 8 8 % 8 ≠ 0 then some Status.badAddress
  else none

/-- An accepted FW_OPEN; a failed read completes BAD_ADDRESS (15 R426). -/
def State.fwOpen (s : State) (p : Option Prep) (r : Nat) (f : Fetched) : State :=
  match fwOpenBad f with
  | some st => s.finish r f st
  | none =>
    match p.bind (·.mask) with
    | some h => s.openSession r f h
    | none => s.finish r f Status.badAddress

/-- FW_OPEN: the hub issues the read of the header, and once it is back accepts the descriptor. -/
def execFwOpen (ring : Nat) (s : State) : Host.Outcome State Fault Refusal :=
  match s.acceptNext ring with
  | some f =>
    let due := f.opcode == 0x40 && s.engineUp 6
    let skip := !f.headerOk || memNat (s.ring ring).marked f.sq || (fwOpenBad f).isSome
    match s.prepOf ring f.sq with
    | some p => whenDue s due (s.acceptRun ring f fun f t => t.fwOpen (some p) ring f)
    | none =>
      if skip then whenDue s due (s.acceptRun ring f fun f t => t.fwOpen none ring f)
      else whenDue s (due && s.readFree)
        ({ s with ctl := { s.ctl with preps := ⟨ring, f.sq, none, none, false⟩ :: s.ctl.preps } }.issueRead
          (f.body 8 8) 256 (.fwHeader ring f.sq))
  | none => .next s

/-- A chunk is being read for a slot (15 R429: descriptors act in order of acceptance). -/
def State.chunkBusy (s : State) (slot : Nat) : Bool := s.fw.chunkOps.any fun c => c.slot == slot

/-- Reads a chunk, unless an earlier descriptor is reading the same one. -/
def State.readChunk (s : State) (c : ChunkOp) (addr len : Nat) (busy : Bool) : State :=
  let t := { s with fw := { s.fw with chunkOps := s.fw.chunkOps ++ [c] } }
  if busy then t else t.issueRead addr len (.fwChunk c.oid)

/-- An accepted FW_CHUNK (15 R427). -/
def State.fwChunk (s : State) (r : Nat) (f : Fetched) : State :=
  let i := f.body 0 1
  let off := f.body 4 4
  let addr := f.body 8 8
  let len := f.body 16 4
  let q := s.slot i
  if !f.zero 1 3 ∨ !f.zero 20 28 then s.finish r f Status.badDescriptor
  else if ¬(1 ≤ i ∧ i ≤ 2 ∧ q.st = .open_) then s.finish r f Status.notFound
  else
    let total := hdrPayload q.header
    if off % 4096 ≠ 0 ∨ total ≤ off ∨ len ≠ min 4096 (total - off) then s.finish r f Status.badDescriptor
    else if addr % 8 ≠ 0 then s.finish r f Status.badAddress
    else
      let t := s.setSlot i { q with since := s.time.now }
      if memNat q.chunks off then t.commit r f.sq Status.ok f.tag false [1] [] none
      else
        let busy := s.fw.chunkOps.any fun c => c.slot == i && c.offset == off
        t.readChunk ⟨t.ctl.nextOid, r, f.sq, f.tag, i, off, addr, len, false, none, false⟩ addr len busy

/-- FW_CHUNK. -/
def execFwChunk (ring : Nat) (s : State) : Host.Outcome State Fault Refusal :=
  match s.acceptNext ring with
  | some f => whenDue s (f.opcode == 0x41 && s.engineUp 6 && s.readFree)
      (s.acceptRun ring f fun f t => t.fwChunk ring f)
  | none => .next s

/-- A slot of an open session. -/
def State.sessionOpen (s : State) (i : Nat) : Bool := 1 ≤ i && i ≤ 2 && (s.slot i).st == .open_

/-- A slot is found BAD; the golden slot sets GOLDEN_BAD (15 R423). -/
def State.slotBad (s : State) (i : Nat) : State :=
  let t := s.setSlot i { s.slot i with st := .bad }
  if i = 0 then t.event Reg.fwStat 10 else t

/-- An accepted FW_CLOSE (15 R428). `read` is what reading the payload back finds: a page beyond correction leaves the slot BAD
(15 R423), and no digest that could be the header's (notes/assumptions/110.md). -/
def State.fwClose (s : State) (r : Nat) (f : Fetched) (read : StoreRead) : State :=
  let i := f.body 0 1
  let q := s.slot i
  if !f.zero 1 47 then s.finish r f Status.badDescriptor
  else if !s.sessionOpen i then s.finish r f Status.notFound
  else
    let missing := hdrChunks q.header - q.chunks.length
    if 0 < missing then s.commit r f.sq Status.partial_ f.tag false (leBytes 4 missing) [] none
    else
      let t := s.storeRead read
      if read.bad.isSome then (t.slotBad i).finish r f Status.imageMismatch
      else if q.digestOk then (t.setSlot i { q with st := .valid }).finish r f Status.ok
      else (t.emptySlot i).finish r f Status.imageMismatch

/-- FW_CLOSE: chunks accepted before it are written before the digest is computed. -/
def execFwClose (c : CloseRead) (s : State) : Host.Outcome State Fault Refusal :=
  match s.acceptNext c.ring with
  | some f => whenDue s (f.opcode == 0x42 && s.engineUp 6 && !s.chunkBusy (f.body 0 1))
      (s.acceptRun c.ring f fun f t => t.fwClose c.ring f c.read)
  | none => .next s

/-- An accepted FW_DROP (15 R429). -/
def State.fwDrop (s : State) (r : Nat) (f : Fetched) : State :=
  let i := f.body 0 1
  if !f.zero 1 47 then s.finish r f Status.badDescriptor
  else if !s.sessionOpen i then s.finish r f Status.notFound
  else (s.emptySlot i).finish r f Status.ok

/-- FW_DROP. -/
def execFwDrop (ring : Nat) (s : State) : Host.Outcome State Fault Refusal :=
  match s.acceptNext ring with
  | some f => whenDue s (f.opcode == 0x43 && s.engineUp 6 && !s.chunkBusy (f.body 0 1))
      (s.acceptRun ring f fun f t => t.fwDrop ring f)
  | none => .next s

/-- SESSION_ABANDON: no FW_CHUNK accepted for 1 s (15 R429). -/
def execSessionAbandon (slot : Nat) (s : State) : Host.Outcome State Fault Refusal :=
  whenDue s (s.sessionOpen slot && !s.chunkBusy slot && (s.slot slot).since + s.seconds 1 ≤ s.time.now)
    (s.emptySlot slot)

/-! ### Activation (15 R430 to R434) -/

/-- What R430 finds wrong with an FW_ACTIVATE stake, in its order. -/
def State.activateFails (s : State) (k : Stake) : Option Nat :=
  let i := byteAt k.args 0
  if k.x ≠ s.n - s.g ∨ 2 < i ∨ !allZero (bytesAt k.args 1 3) ∨ i = s.fw.runSlot then some Status.badDescriptor
  else if (s.slot i).st ≠ .valid ∨ hdrDigest (s.slot i).header ≠ bytesAt k.args 4 32 then some Status.imageMismatch
  else if s.fw.act.isSome then some Status.noSlot
  else none

/-- The check of the header again, and of the payload's digest (15 R431); the golden slot's factory image is bound by neither
FW_MIN_SEC nor revocation (15 R435, R440). -/
def State.copyFails (s : State) (i : Nat) (readable : Bool) : Option Nat :=
  let q := s.slot i
  if !readable then some Status.imageMismatch
  else match s.headerCheck (i == 0) q.header with
    | some st => some (if st = Status.sigFail then Status.sigFail else Status.imageMismatch)
    | none => if q.digestOk then none else some Status.imageMismatch

/-- The copy of the pending activation ends (15 R431): a failed check completes the stake at once; one that is not finished
8 crossings before the target completes LATE. -/
def State.copyDone (s : State) (a : Activation) (k : Stake) (read : StoreRead) : State :=
  let t := s.storeRead read
  let t := if read.bad.isNone then t else t.slotBad a.slot
  match s.copyFails a.slot read.bad.isNone with
  | some st => t.endStake k st 0 0
  | none =>
    if s.distance k.orbit k.x < 8 then t.endStake k Status.late 0 0
    else { t with fw := { t.fw with act := some { a with copied := true } } }

/-- The copy of the pending activation is not finished 8 crossings before the target: the stake completes LATE, and nothing
changes (15 R431). -/
def State.copyLate (s : State) : State :=
  match s.fw.act with
  | some a =>
    match s.stakes.find? fun k => k.sid == a.sid with
    | some k => if !a.copied && !k.held && s.engineUp 6 && s.distance k.orbit k.x < 8 then s.endStake k Status.late 0 0 else s
    | none => s
  | none => s

/-- FW_COPY_DONE. `read`: what the pages of the slot were found to hold. -/
def execFwCopyDone (read : StoreRead) (s : State) : Host.Outcome State Fault Refusal :=
  match s.fw.act with
  | some a =>
    match s.stakes.find? fun k => k.sid == a.sid with
    | some k => whenDue s (!a.copied && s.engineUp 6) (s.copyDone a k read)
    | none => .next s
  | none => .next s

/-- FW_ACTIVATE at its target: the engines switch, probation begins, and the stake commits; without a finished copy it
completes LATE (15 R431 to R433). -/
def State.activate (s : State) (k : Stake) : State :=
  match s.fw.act with
  | some a =>
    if a.copied then
      let w := s.fw
      let t := ((s.switchEngines Engine.handsOver).runImage a.slot).ranStake k 0
      { t with fw := { t.fw with
          prevSlot := w.runSlot, prevVer := w.runVer, prevSec := w.runSec, prevDigest := w.runDigest, prevRevoke := w.runRevoke
          probation := true, fellBack := false, bootFellBack := false } }
    else s.endStake k Status.late 0 0
  | none => s.endStake k Status.late 0 0

/-- FW_ACTIVATE. -/
def execFwActivate (s : State) : Host.Outcome State Fault Refusal :=
  match s.dueStake 0x07 with
  | some k => .next (s.activate k)
  | none => .next s

/-- FW_FALLBACK: during probation an engine that has not reached step 4 of the switch 20 µs after its target returns the hub to the
previous image. LOCKSTEP_STORM, two failed checkpoint slots and a failed start check do so at once, with the restart that meets
them (15 R433). -/
def execFwFallback (s : State) : Host.Outcome State Fault Refusal :=
  whenDue s (s.fw.probation && (upto 0 8).any s.switchLate) s.fallback

/-- An accepted FW_COMMIT (15 R434, R435). The one that ends a probation saves ID_HUB_ID as well (15 Table 15.7,
notes/assumptions/29.md). -/
def State.fwCommit (s : State) (r : Nat) (f : Fetched) : State :=
  let w := s.fw
  if !f.zero 0 48 then s.finish r f Status.badDescriptor
  else
    let id := s.fld Reg.idHubId 15 0
    if w.probation then
      let sec := max w.minSec w.runSec
      let rev := w.revoked ||| w.runRevoke
      ({ s with fw := { w with
        probation := false, bootSlot := w.runSlot, minSec := sec, revoked := rev, bootFellBack := false
        settings := { w.settings with bootSlot := w.runSlot, minSec := sec, hubId := some id }, idRevoked := rev } }).finish
          r f Status.ok
    else if w.fellBack ∨ w.bootFellBack then
      ({ s with fw := { w with bootFellBack := false } }).finish r f Status.fallback
    else s.finish r f Status.ok

/-- FW_COMMIT. -/
def execFwCommit (ring : Nat) (s : State) : Host.Outcome State Fault Refusal :=
  match s.acceptNext ring with
  | some f => whenDue s (f.opcode == 0x44 && s.engineUp 6) (s.acceptRun ring f fun f t => t.fwCommit ring f)
  | none => .next s

/-! ### Certificates (15 R437) -/

/-- A certificate as CERT_READ writes it. -/
def certBytes (c : List Byte) : List Byte :=
  let c := c.take 1024
  padTo 8 (leBytes 4 c.length ++ c)

/-- An accepted CERT_READ. -/
def State.certRead (s : State) (r : Nat) (f : Fetched) : State :=
  let addr := f.body 8 8
  let data := certBytes Config.deviceCert ++ certBytes Config.authorityCert
  if f.body 16 4 < data.length ∨ !f.zero 0 8 ∨ !f.zero 20 28 then s.finish r f Status.badDescriptor
  else if addr % 8 ≠ 0 then s.finish r f Status.badAddress
  else
    let t := s.hostWrite 7 addr data
    t.commit r f.sq Status.ok f.tag false [] [(7, t.openSeq 7)] none

/-- CERT_READ: it waits while the class-7 share cannot take the certificates. -/
def execCertRead (ring : Nat) (s : State) : Host.Outcome State Fault Refusal :=
  match s.acceptNext ring with
  | some f =>
    match s.tryShare 7 0 fun t => t.acceptRun ring f fun f t => t.certRead ring f with
    | some t => whenDue s (f.opcode == 0x48 && s.engineUp 6) t
    | none => .next s
  | none => .next s

end Sys2Proof.Machine
end

