-- ==== Sys2Proof/Machine/RegRead.lean ====
section
/-!
DEFINITION. What a read of a register returns: the stored fields, and the fields that show the hub's state, page by page
(17 R463 to R469, R481; the register tables of every chapter). `o` is the offset in the page, `w` the stored word.
-/

namespace Sys2Proof.Machine

open Sys2Proof

/-- A half of a 64-bit value. -/
def halfOf (v : Nat) (hi : Bool) : Word := BitVec.ofNat 32 (if hi then v / 2 ^ 32 else v)

/-- A word of a 64-bit register at offset `base`. -/
def half (v o base : Nat) : Word := halfOf v (o != base)

/-- Index of an offset in an array of `n` words, `stride` apart from `base`. -/
def arrIdx (o base stride n : Nat) : Option Nat :=
  if base ≤ o ∧ (o - base) % stride = 0 ∧ (o - base) / stride < n then some ((o - base) / stride) else none

/-- An array's word, or what follows. -/
def onArr (o base stride n : Nat) (f : Nat → Word) (rest : Word) : Word :=
  match arrIdx o base stride n with
  | some i => f i
  | none => rest

/-- A word with bit `b` for each `b < n` of which `f` holds. -/
def bitMap (n : Nat) (f : Nat → Bool) : Word := (upto 0 n).foldl (fun w b => w ||| bitAt b (f b)) 0

/-! ### Pages 0x01 to 0x04 -/

/-- Status fields that the state gives read their reset value in phases RAILS and FUSE and show the state from then on
(17 R465; notes/assumptions/31.md). -/
def State.statusUp (s : State) : Bool := decide (1 < s.power.phase.code)

/-- TIME_ (02 Tables 2.8, 2.10, 2.12). -/
def State.readTime (s : State) (p : Path) (o : Nat) (w : Word) : Word :=
  let t := s.time
  let v := s.servo
  match o with
  | 0x004 => w ||| bitAt 3 s.ref.onFallback ||| place s.timeStateCode 0
  | 0x014 => place s.n 0 ||| place s.g 16
  | 0x018 => place (max 16 (bits w 7 0)) 0
  | 0x020 | 0x024 => half s.datum o 0x020
  | 0x028 => place (toTwos 17 v.phi) 0
  | 0x040 | 0x044 => half t.xcount o 0x040
  | 0x048 | 0x04C => half t.plumb o 0x048
  | 0x050 | 0x054 => half t.merS o 0x050
  | 0x058 | 0x05C => half (t.merPs + (if s.statusUp then s.quality * 2 ^ 48 else 0)) o 0x058
  | 0x068 | 0x06C => half t.staff o 0x068
  | 0x11C => place (v.updates % 65536) 16 ||| place (min 0xFF v.lockRun) 8 ||| bitAt 3 v.clamped |||
      bitAt 2 v.lastStepped ||| place s.servoState 0
  | 0x120 => BitVec.ofNat 32 (toTwos 32 v.err)
  | 0x124 => BitVec.ofNat 32 (toTwos 32 v.rtt)
  | 0x200 => w ||| place s.stakes.length 0
  | _ =>
    onArr o 0x088 8 7 (fun i => halfOf ((s.path p).caps.drop i |>.headD 0).toNat false)
      (onArr o 0x08C 8 7 (fun i => halfOf ((s.path p).caps.drop i |>.headD 0).toNat true) w)

/-- STN_ of the selected station (05 Tables 5.3, 5.4). -/
def State.readStn (s : State) (p : Path) (o : Nat) (w : Word) : Word :=
  let st := (s.path p).stnSel
  let v := s.stn st
  let ch (k : Nat) : Channel := s.chan (16 * st + k)
  match o with
  | 0x000 => place st 0
  | 0x008 => w ||| place (min 0xFFFF v.settleCount) 16 ||| bitAt 0 v.applyAt.isSome
  | 0x014 => place v.settleInfo.1 16 ||| place v.settleInfo.2 0
  | 0x018 | 0x01C => half (datumWord v.settleFirst.1 v.settleFirst.2) o 0x018
  | _ =>
    onArr o 0x600 16 16 (fun k => place (ch k).postFlags.toNat 28 ||| place (toTwos 20 (ch k).postMax) 0)
      (onArr o 0x604 16 16 (fun k => place (toTwos 20 (ch k).postMin) 0)
        (onArr o 0x608 16 16 (fun k => place ((ch k).postRms % 2 ^ 24) 0)
          (onArr o 0x60C 16 16 (fun k => place ((ch k).postEnv % 2 ^ 22) 0) w)))

/-- A half of FE_TEST_RES (03 Table 3.16). -/
def Channel.testRes (c : Channel) : Nat := (if c.fault then 0x8000 else 0) + c.result % 8 * 0x1000 + c.rMeas % 0x1000

/-- FE_ (03 Tables 3.9, 3.11, 3.14, 3.16). -/
def State.readFe (s : State) (o : Nat) (w : Word) : Word :=
  let active (i : Nat) : Bool := (s.src i).out != 0
  match o with
  | 0x004 => w ||| place (s.dcTest.seq % 65536) 16 ||| bitAt 4 s.feStaged ||| bitAt 0 ((upto 0 4).any active)
  | _ =>
    onArr o 0x044 8 4 (fun i => w ||| bitAt 16 (active i))
      (onArr o 0x100 4 16 (fun m => bitMap 32 fun b => (s.chan (32 * m + b)).fault)
        (onArr o 0xC00 4 256 (fun m => place (s.chan (2 * m)).testRes 0 ||| place (s.chan (2 * m + 1)).testRes 16) w))

/-- Applied trims of a slice, as of the last gap crossing (04 R139, Table 4.9). -/
def Slice.trims (v : Slice) : Word :=
  place (toTwos 10 v.shown.2.2) 21 ||| place (toTwos 12 v.shown.2.1) 9 ||| place (toTwos 9 v.shown.1) 0

/-- CAL_STN_STAT of a station (04 Table 4.10). Before phase CAL no step can be in progress and STEP reads its reset value
(notes/assumptions/31.md). -/
def State.calStnStat (s : State) (st : Nat) : Word :=
  let v := s.stn st
  let (step, target) : Nat × Nat := match v.job with
    | some j => match j.step with
      | .visit i => (0, i)
      | .shadow k => (1, k)
      | .selfCal => (2, 0)
    | none => (if s.past .time then 3 else 0, 0)
  place (v.halfCh.getD 0) 24 ||| bitAt 23 v.halfCh.isSome ||| bitAt 22 v.spareFault ||| bitAt 21 v.spareUsed.isSome |||
    place (v.spareUsed.getD 0x3F) 15 ||| place v.st 13 ||| place step 11 ||| place target 5 ||| place (min 31 v.failed) 0

/-- CAL_ (04 Tables 4.6, 4.8 to 4.10). -/
def State.readCal (s : State) (p : Path) (o : Nat) (w : Word) : Word :=
  let c := (s.path p).calSel
  let v := s.chan c
  let sl (i : Nat) : Slice := s.slice (sliceNo (c / 16) (2 * (c % 16) + i))
  match o with
  | 0x004 => putBits w 1 1 (if (upto 0 512).any fun i => s.chEn i && s.chStale i then 1 else 0)
  | 0x018 => bitMap 32 fun j => (s.stn j).runReq || (s.stn j).st == 2
  | 0x040 => place c 0
  | 0x044 => place (toTwos 16 v.ped64.eff) 0
  | 0x048 => place (toTwos 16 v.ped1.eff) 16 ||| place (toTwos 16 v.ped8.eff) 0
  | 0x04C => place (toTwos 24 v.ratio8.eff) 0
  | 0x050 => place (toTwos 24 v.ratio1.eff) 0
  | 0x054 => (sl 0).trims
  | 0x058 => (sl 1).trims
  | 0x05C => place v.shownAge.1 16 ||| bitAt 0 v.shownAge.2
  | 0x1F0 => place (s.path p).skewSel 0
  | 0x1F4 => place (toTwos 10 (s.stn (s.path p).skewSel).spareSkew) 0
  | _ =>
    onArr o 0x100 4 32 s.calStnStat
      (onArr o 0x180 4 32 (fun j => place (toTwos 16 (s.stn j).thetaMeas) 16 ||| place (toTwos 16 (s.stn j).theta) 0) w)

/-! ### Pages 0x05 to 0x08 -/

/-- HIT_ (06 Tables 6.13, 6.15). -/
def State.readHit (s : State) (o : Nat) (w : Word) : Word :=
  match o with
  | 0x004 => w ||| bitAt 0 s.streaming
  | 0x00C => place (s.trig.gseqLast % 65536) 0
  | _ => w

/-- TRG_ (06 Tables 6.16, 6.18). -/
def State.readTrg (s : State) (p : Path) (o : Nat) (w : Word) : Word :=
  let g := s.trig
  let d := g.dt
  match o with
  | 0x004 => w ||| place (min 0xFFFF g.accGapCount) 16 ||| place g.accQueue.length 0
  | 0x014 => g.twLate
  | 0x018 => BitVec.ofNat 32 g.accSeqLast
  | 0x040 | 0x044 => half ((d.acc + d.self) % 2 ^ 64) o 0x040
  | 0x048 | 0x04C => half d.accGap o 0x048
  | 0x050 | 0x054 => half d.busyX o 0x050
  | 0x058 | 0x05C => half d.hitGapX o 0x058
  | 0x060 | 0x064 => half d.profGapX o 0x060
  | 0x068 | 0x06C => half d.primLate o 0x068
  | 0x084 => place g.trv.state 0 ||| bitAt 8 g.trv.run ||| bitAt 9 g.trv.alert
  | 0x0A4 => place (min 0xFFFF g.ctr.violations) 16 ||| place (min 0xFFFF g.ctr.busy) 0
  | 0x0A8 => place (s.path p).ctrSel 0
  | 0x0B0 | 0x0B4 => half (datumWord g.ctr.viol.1 g.ctr.viol.2) o 0x0B0
  | 0x0B8 => g.ctr.vinfo
  | _ => onArr o 0x088 4 4 (fun i => place (g.trv.counters.drop i |>.headD 0) 0) w

/-- HIS_ (07 Tables 7.9, 7.11). -/
def State.readHis (s : State) (o : Nat) (w : Word) : Word :=
  let h := s.hist
  match o with
  | 0x004 =>
    let act := s.inService.length
    w ||| place (min 0xFF (h.recalls.length - act)) 24 ||| place act 16 ||| bitAt 1 s.inDebt |||
      bitAt 0 (h.recalls.any fun r => s.recallWaits r || s.pinWaits r)
  | 0x014 => place (h.scrubPasses % 65536) 16 ||| place (min 0xFFFF (h.scrubBytes * 65536 / retainedBytes)) 0
  | 0x018 | 0x01C => half s.oldestX o 0x018
  | 0x020 | 0x024 => half s.newestX o 0x020
  | 0x028 => place (s.depth % 2 ^ 24) 0
  | 0x02C => place s.histRatio 0
  | 0x030 => place s.pinFree 0
  | 0x034 => place h.pins.length 0
  | 0x038 => BitVec.ofNat 32 h.errCount
  | 0x03C => BitVec.ofNat 32 h.evictCount
  | _ => w

/-- CMP_ (08 Table 8.5). -/
def State.readCmp (s : State) (o : Nat) (w : Word) : Word :=
  let h := s.hist
  match o with
  | 0x008 => BitVec.ofNat 32 h.storedCount
  | 0x00C => place (min 0xFF h.errHeader) 0 ||| place (min 0xFF h.errIllegal) 8 ||| place (min 0xFF h.errDistance) 16 |||
      place (min 0xFF h.errLength) 24
  | 0x010 => BitVec.ofNat 32 h.checkCount
  | 0x018 | 0x01C => half h.errX o 0x018
  | 0x020 => h.errInfo
  | _ => w

/-! ### Pages 0x09 to 0x0D -/

/-- STATE of a receive lane (09 Table 9.14). -/
def RxStat.code : RxStat → Nat
  | .los => 0 | .acquire => 1 | .aligned => 2 | .up => 3

/-- LNK_DLA_STAT (09 Table 9.14). -/
def RxLaneState.word (r : RxLaneState) : Word :=
  place (min 0xFFFF r.codeErr) 16 ||| place (min 0xFF r.extRsvd) 8 ||| place r.stat.code 0

/-- LNK_ULn_STAT (09 Table 9.15). -/
def TxLane.stat (l : TxLane) : Word :=
  let st := match l.st with
    | .off => 0
    | .up => 2
    | .backoff => 3
    | _ => 1
  place (min 0xFFFF l.downCount) 16 ||| place (min 15 l.attempts) 8 ||| place l.step 6 ||| place l.st.code 3 ||| place st 0

/-- LNK_ULn_TAP (09 Table 9.16). -/
def TxLane.tap (l : TxLane) : Word := place l.swing 8 ||| place l.pre 4 ||| place l.post 0

/-- XCH_LANE_DOWN: the exchange lane is not UP; 0 until the uplinks may start, after phase FUSE (09 R288, Table 9.13;
16 R455). -/
def State.xchDown (s : State) : Bool := s.statusUp && !s.laneUp s.xchLane

/-- PRIM_NONE: both primitive lanes are not UP; 0 until the uplinks may start, after phase FUSE (09 R287, Table 9.13;
notes/assumptions/31.md). -/
def State.primNone (s : State) : Bool := s.statusUp && !s.laneUp 0 && !s.laneUp 1

/-- LNK_ (09 Tables 9.11, 9.13 to 9.16). -/
def State.readLnk (s : State) (o : Nat) (w : Word) : Word :=
  match o with
  | 0x004 => w ||| bitAt 8 s.primNone ||| bitAt 3 (s.rxUp .dlb) ||| bitAt 2 (s.rxUp .dla) ||| bitAt 1 s.xchDown
  | 0x00C => bitMap 32 s.laneUp
  | 0x020 => s.dla.word
  | 0x024 => s.dlb.word
  | 0x030 => (s.lane 32).stat
  | 0x034 => (s.lane 32).tap
  | 0x038 => (s.lane 33).stat
  | 0x03C => (s.lane 33).tap
  | _ => onArr o 0x200 8 32 (fun n => (s.lane n).stat) (onArr o 0x204 8 32 (fun n => (s.lane n).tap) w)

/-- 64-byte units of the spool in use. -/
def State.spoolUnits (s : State) : Nat := ((upto 0 16).map s.macroUnits).foldl (· + ·) 0

/-- A word of a class's block of SPL_ (10 Table 10.6). -/
def State.readSplClass (s : State) (p : Path) (c k : Nat) (w : Word) : Word :=
  let v := s.cls c
  match k with
  | 0x04 => place (v.occ / 64) 0
  | 0x08 => BitVec.ofNat 32 v.nextSeq
  | 0x0C => BitVec.ofNat 32 v.bm
  | 0x10 => BitVec.ofNat 32 v.limit
  | 0x14 => BitVec.ofNat 32 v.used
  | 0x18 => place (min 0xFFFF v.rsndLane) 16 ||| place (min 0xFFFF v.rsndTmo) 0
  | 0x1C => bitAt 17 ((s.path p).full.getLsbD c) ||| bitAt 16 v.waitsCredit ||| place (min 0xFFFF v.queue.length) 0
  | _ => w

/-- SPL_ (10 Tables 10.6, 10.8). -/
def State.readSpl (s : State) (p : Path) (o : Nat) (w : Word) : Word :=
  match o with
  | 0x004 =>
    w ||| ((upto 0 8).foldl (fun a c => a ||| bitAt (8 + c) (s.cls c).waitsCredit) 0) |||
      bitAt 1 ((upto 0 8).any fun c => !(s.cls c).held.isEmpty) ||| bitAt 0 (s.statusUp && !s.anyDataUp)
  | 0x014 => place (0x20000 - s.spoolUnits) 0
  | 0x018 => BitVec.ofNat 32 s.spool.laneRsnd
  | _ => if 0x100 ≤ o ∧ o < 0x200 then s.readSplClass p ((o - 0x100) / 32) ((o - 0x100) % 32) w else w

/-- CTL_RINGr_RSTAT (11 Table 11.14): CQ_WAIT is 1 while descriptors wait and the completion reserve holds them. -/
def State.rstat (s : State) (r : Nat) (w : Word) : Word :=
  let g := s.ring r
  w ||| bitAt 17 (g.st == 1 && g.tail != g.fetch && s.cqRoom r == 0) ||| bitAt 16 (s.fenceWait r) ||| place g.st 12 |||
    place (min 0x1FF (s.inflight r)) 0

/-- A word of a ring's block of CTL_ (11 Table 11.10). -/
def State.readRing (s : State) (r k : Nat) (w : Word) : Word :=
  let g := s.ring r
  match k with
  | 0x14 => place g.tail 16 ||| place g.fetch 0
  | 0x18 => place g.head 16 ||| place g.write 0
  | 0x1C => s.rstat r w
  | _ => w

/-- CTL_ (11 Tables 11.10, 11.12). -/
def State.readCtl (s : State) (o : Nat) (w : Word) : Word :=
  let c := s.ctl
  match o with
  | 0x004 => w ||| bitAt 0 ((upto 0 32).any fun r => s.ringState r == 1)
  | 0x008 => place (min 256 s.inflightAll) 0 ||| place c.reads.length 16
  | 0x00C => place (min 0xFFFF c.msgDrop) 16 ||| place (min 0xFFFF c.dbBad) 0
  | 0x010 => place (min 0xFFFF c.rdFail) 16 ||| place (min 0xFFFF c.rdRetry) 0
  | _ => if 0x100 ≤ o ∧ o < 0x900 then s.readRing ((o - 0x100) / 64) ((o - 0x100) % 64) w else w

/-- ROLE (12 Table 12.9). -/
def Role.code : Role → Nat
  | .none => 0 | .active => 1 | .standby => 2

/-- HOPS of a stream as last received. -/
def State.streamHops (s : State) (b : Bool) : Nat :=
  match s.streamIn b with
  | some pt => (s.rx (portRx pt)).hops.headD 0
  | none => 0

/-- BRX_ (12 Tables 12.7, 12.9, 12.10). -/
def State.readBrx (s : State) (o : Nat) (w : Word) : Word :=
  let b := s.brix
  match o with
  | 0x004 => w ||| bitAt 8 s.mirrorUp ||| bitAt 7 s.singlePath ||| bitAt 6 s.usingB |||
      bitAt 5 (b.sync && b.role == .standby) ||| place b.role.code 3 ||| place s.brixState 0
  | 0x008 =>
    let m := match b.ringMap with
      | some (body, _) => byteAt body 4
      | none => 0
    place (s.posMask s.posPresent) 0 ||| place (s.posMask s.posBypassed) 8 ||| place (m % 8) 16 ||| bitAt 19 (128 ≤ m)
  | 0x010 => BitVec.ofNat 32 (toTwos 32 b.linkP)
  | 0x014 => BitVec.ofNat 32 (toTwos 32 b.linkQ)
  | 0x028 => place (b.pathA % 2 ^ 24) 0 ||| place (s.streamHops false % 8) 24 ||| bitAt 31 b.pathAValid
  | 0x02C => place (b.pathB % 2 ^ 24) 0 ||| place (s.streamHops true % 8) 24 ||| bitAt 31 b.pathBValid
  | 0x030 => place (min 0xFFFF b.mismatches) 16 ||| place (min 0xFF b.closureRun) 8 ||| place b.attrib 2 |||
      bitAt 1 b.missing ||| bitAt 0 b.lastMatch
  | 0x038 => place (min 0xFFFF b.fcDiff) 16 ||| place (min 0xFFFF b.rseqDup) 0
  | 0x040 | 0x044 => half (b.mismatchOrbit % 2 ^ 44) o 0x040
  | _ => w

/-- STATE and POINT_NOW of the survey port (13 Table 13.9). -/
def State.srvNow (s : State) : Nat × Nat :=
  if !bit (s.reg Reg.srvCtl) 0 && !s.readingNow then (0, 0)
  else match s.survey.job with
    | .idle => (if s.survey.passRun then 2 else 1, 0)
    | .settling p r | .converting p r => (if r then 3 else 2, p)
    | .selfCal => (4, 0)

/-- SRV_ (13 Tables 13.7, 13.9). -/
def State.readSrv (s : State) (o : Nat) (w : Word) : Word :=
  let v := s.survey
  match o with
  | 0x004 => w ||| place s.srvNow.2 16 ||| place s.srvNow.1 0
  | 0x018 => BitVec.ofNat 32 v.drop
  | 0x01C => place (v.sseqLast % 65536) 0
  | 0x020 => place v.temp.toNat 0
  | 0x024 => bitMap 32 fun b => (s.srvRes b).fault
  | 0x028 => bitMap 32 fun b => (s.srvRes (32 + b)).fault
  | _ =>
    onArr o 0x500 8 64 (fun k => s.srvLow k)
      (onArr o 0x504 8 64 (fun k => (s.srvRes k).value)
        (onArr o 0x700 4 64 (fun k => place (s.srvAge k) 0) w))

/-! ### Pages 0x0E to 0x12 -/

/-- The bank that a path has selected; above 75 acts as 75 (14 Table 14.7). -/
def State.selBank (s : State) (p : Path) : Nat := min 75 (s.path p).bankSel

/-- MEM_BANK_STAT (14 Table 14.10). -/
def State.bankStat (s : State) (b : Nat) : Word :=
  let st :=
    if s.inRetention b then 1
    else if (match s.mem.march with | some m => m.bank == b | none => false) then 2
    else if !(s.bank b).repairs.isEmpty then 3
    else 0
  place st 26 ||| place (if largeBank b then 0 else 1) 24 ||| place (s.spareLeft b) 16 ||| place (min 0xFF (s.bank b).used) 8 |||
    place (fusedOf b) 0

/-- Restart counts of four engines (14 Table 14.7). -/
def State.lockstepWord (s : State) (k : Nat) : Word :=
  (upto 0 4).foldl (fun w i => w ||| place (min 0xFF (s.engine (k + i)).restarts) (8 * i)) 0

/-- MEM_ but for its windows and MEM_CONF (14 Tables 14.7, 14.9). -/
def State.readMem (s : State) (p : Path) (o : Nat) (w : Word) : Word :=
  let m := s.mem
  match o with
  | 0x004 => w ||| bitAt 17 m.redirect.isSome ||| bitAt 16 m.march.isSome
  | 0x00C => place (s.path p).winAddr 0
  | 0x014 => bitMap 19 (memNat m.asleep)
  | 0x018 => place (s.path p).bankSel 0
  | 0x01C => s.bankStat (s.selBank p)
  | 0x020 => BitVec.ofNat 32 (s.bank (s.selBank p)).ce
  | 0x024 => BitVec.ofNat 32 (s.bank (s.selBank p)).ue
  | 0x028 | 0x02C => half m.dramCe o 0x028
  | 0x030 => BitVec.ofNat 32 m.dramUe
  | 0x034 => place (min 0xFF m.softRepairs) 0 ||| place (min 0xFF m.hardRepairs) 8 ||| place (min 0xFF m.pendingHard) 16 |||
      place (min 0xFF (m.spareRows.foldl min (m.spareRows.headD 0))) 24
  | 0x038 => BitVec.ofNat 32 m.tmrCnt
  | 0x03C => place (min 0xFFFF m.nvmUe) 16 ||| place (min 0xFFFF m.nvmCe) 0
  | 0x040 => s.lockstepWord 0
  | 0x044 => s.lockstepWord 4
  | 0x048 => BitVec.ofNat 32 (if m.log.isEmpty then 0 else (m.lseq + 2 ^ 32 - 1) % 2 ^ 32)
  | 0x04C => BitVec.ofNat 32 m.logLost
  | 0x050 => place m.dose 0
  | 0x054 => place m.fluence 0
  | _ => w

/-- What is loaded in phase SETTINGS has been loaded; a read before returns 0 (17 R465). -/
def State.storeLoaded (s : State) : Bool :=
  s.past .settings

/-- ENG_STAT (15 Table 15.7). -/
def State.engStat (s : State) : Word :=
  bitMap 8 (fun k => (s.engine k).running) ||| (bitMap 8 (fun k => (s.engine k).restarting) <<< 8) |||
    (bitMap 8 (fun k => (s.engine k).region == 1) <<< 16) ||| bitAt 24 ((upto 0 8).any fun k => (s.engine k).switchedAt.isSome)

/-- STATE of a slot (15 Table 15.7). -/
def SlotState.code : SlotState → Nat
  | .empty => 0 | .open_ => 1 | .valid => 2 | .bad => 3

/-- FW_ (15 Tables 15.7, 15.8). -/
def State.readFw (s : State) (o : Nat) (w : Word) : Word :=
  let v := s.fw
  match o with
  | 0x000 => w ||| bitAt 11 s.power.bootFail ||| place v.bootSlot 4 ||| place v.runSlot 2 ||| bitAt 1 v.act.isSome |||
      bitAt 0 v.probation
  | 0x004 => BitVec.ofNat 32 v.runVer
  | 0x008 => BitVec.ofNat 32 v.runSec
  | 0x00C => BitVec.ofNat 32 v.minSec
  | 0x020 | 0x024 =>
    let d := match v.act with
      | some a => match s.stakes.find? fun k => k.sid == a.sid with
        | some k => datumWord k.orbit k.x
        | none => 0
      | none => 0
    half d o 0x020
  | _ => onArr o 0x010 4 3 (fun i =>
      let q := s.slot i
      if s.storeLoaded then
        place q.st.code 0 ||| place (min 0xFF (q.chunks.length / 16)) 8 ||| place (hdrVersion q.header / 65536) 16
      else 0) w

/-- ID_ (15 Table 15.7); ID_HUB_ID reads 0 until phase IMAGE has loaded it (17 R465). -/
def State.readId (s : State) (o : Nat) (w : Word) : Word :=
  match o with
  | 0x010 => if s.past .image then w else 0
  | 0x040 => if s.storeLoaded then place (Config.keysPresent % 16) 0 ||| place s.fw.revoked.toNat 4 else 0
  | _ => w

/-- Nominal voltage and tolerance of a rail, mV and % (16 Table 16.1). -/
def railNominal (k : Nat) : Nat := [800, 850, 1200, 1800, 900, 1200, 1800, 1100, 1800].drop k |>.headD 0
def railTol (k : Nat) : Nat := [3, 3, 2, 2, 3, 3, 5, 3, 3].drop k |>.headD 0

/-- A rail's voltage at the balls. -/
def State.railV (s : State) (k : Nat) : Nat := tabGet 0 s.railMv k

/-- A rail within its tolerance. -/
def State.railOk (s : State) (k : Nat) : Bool :=
  let n := railNominal k
  decide (100 * (((s.railV k : Int) - n).natAbs) ≤ railTol k * n)

/-- Rise and fall thresholds of a rail's monitor: 93 % and 88 % of nominal, mV, the first voltage at or above each (16 R445). -/
def railRise (k : Nat) : Nat := ceilDiv (93 * railNominal k) 100
def railFall (k : Nat) : Nat := ceilDiv (88 * railNominal k) 100

/-- A rail takes a voltage as measured, and its lowest value since reset follows `low`. -/
def State.setRail (s : State) (k mV low : Nat) : State :=
  let old := tabGet 0 s.railMin k
  { s with
    railMv := tabSet 0 s.railMv k mV
    railMin := tabSet 0 s.railMin k (if s.railV k = 0 then low else min old low) }

/-- The rails measured once each: voltages of `floor` or more, which no rule fixes (notes/assumptions/4.md). -/
def State.measureRails (s : State) (floor : Nat → Nat) : State :=
  let t := (upto 0 9).foldl (fun t k =>
    let (v, t) := t.free
    let (low, t) := t.free
    let v := max (floor k) (v % 65536)
    t.setRail k v (min v (max (floor k) (low % 65536)))) s
  { t with power := { t.power with railAt := t.time.now } }

/-- The voltages as they read now: measured every 1 ms, none below a fall threshold, which would be a power reset (16 R445,
Table 16.6). -/
def State.railsNow (s : State) : State :=
  if s.power.railAt + s.millis 1 ≤ s.time.now ∧ s.period ≠ 0 ∧ s.power.phase != .rails then s.measureRails railFall else s

/-- PWR_ (16 Tables 16.6, 16.7). -/
def State.readPwr (s : State) (o : Nat) (w : Word) : Word :=
  let v := s.power
  match o with
  | 0x000 => w ||| bitAt 2 (v.phase == .fault) ||| bitAt 0 (v.phase == .run)
  | 0x00C => w ||| place v.phase.code 0 ||| place v.faultPhase 4 ||| place v.faultDetail 8
  | 0x010 => bitMap 9 s.railOk
  | 0x018 => w ||| bitAt 0 v.pllLocked ||| bitAt 1 v.pllAcq ||| bitAt 2 (s.ref.holdover || s.ref.free)
  | _ => onArr o 0x040 4 9 (fun k => place (min 0xFFFF (s.railV k)) 0 ||| place (min 0xFFFF (tabGet 0 s.railMin k)) 16) w

/-! ### The TOP_ page and ALERT_N (17 R481, R482) -/

/-- Bits of an event register. -/
def State.anyBit (s : State) (a : Nat) (bs : List Nat) : Bool := bs.any fun b => bit (s.reg a) b

/-- Whether page `p` holds an event or condition that asserts ALERT_N (17 R481). -/
def State.alertPage (s : State) (p : Nat) : Bool :=
  match p with
  | 0x00 => s.anyBit Reg.topDroopStat [1]
  | 0x01 => s.anyBit Reg.timeStat [8, 9, 10, 12]
  | 0x03 => s.anyBit Reg.feStat [3]
  | 0x04 => s.anyBit Reg.calStat [4]
  | 0x06 => s.trig.trv.alert
  | 0x07 => s.anyBit Reg.hisStat [2]
  | 0x09 => s.anyBit Reg.lnkStat [7] || s.primNone
  | 0x0A => s.anyBit Reg.splStat [4]
  | 0x0C => s.anyBit Reg.brxStat [16, 17]
  | 0x0D => s.anyBit Reg.srvStat [8]
  | 0x0E => s.anyBit Reg.memStat [6, 8]
  | 0x10 => s.anyBit Reg.fwStat [8, 10]
  | 0x12 => s.anyBit Reg.pwrStat [3, 4] || s.power.phase == .fault
  | _ => false

/-- TOP_ALERT_SRC. -/
def State.alertSrc (s : State) : Word := bitMap 19 s.alertPage

/-- ALERT_N is driven low; it is released in reset (17 R481, 16 R459, Table 16.5). -/
def State.alertLow (s : State) : Bool :=
  s.power.phase != .rails && (s.power.phase == .fault || (s.alertSrc &&& s.reg Reg.topAlertMask) != 0)

/-- TOP_PATH_STAT of a path (17 Table 17.5). -/
def State.pathStat (s : State) (p : Path) : Word :=
  let v := s.path p
  place (min 0xFFFF v.replyDrop) 16 ||| bitAt 7 (p == .downlink) ||| bitAt 6 v.snap.isSome ||| bitAt 5 v.armed |||
    place v.stat.toNat 0

/-- TOP_ (17 Table 17.4; 01 Table 1.4). -/
def State.readTop (s : State) (p : Path) (o : Nat) (w : Word) : Word :=
  match o with
  | 0x008 => s.pathStat p
  | 0x020 => s.alertSrc
  | 0x040 => w ||| bitAt 0 (!s.power.stretched.isEmpty)
  | _ => w

/-! ### Reads (17 R466, R469) -/

/-- The instance that a path's selection names for a register. -/
def State.instOf (s : State) (p : Path) : RegInst → Nat
  | .none => 0
  | .station => (s.path p).stnSel
  | .mask => (s.path p).ctrSel

/-- The live word of a mapped register, but for the windows and the counts that no rule fixes. -/
def State.liveWord (s : State) (p : Path) (a : Nat) (w : Word) : Word :=
  let o := a % 0x1000
  match a / 0x1000 with
  | 0x00 => s.readTop p o w
  | 0x01 => s.readTime p o w
  | 0x02 => s.readStn p o w
  | 0x03 => s.readFe o w
  | 0x04 => s.readCal p o w
  | 0x05 => s.readHit o w
  | 0x06 => s.readTrg p o w
  | 0x07 => s.readHis o w
  | 0x08 => s.readCmp o w
  | 0x09 => s.readLnk o w
  | 0x0A => s.readSpl p o w
  | 0x0B => s.readCtl o w
  | 0x0C => s.readBrx o w
  | 0x0D => s.readSrv o w
  | 0x0E => s.readMem p o w
  | 0x0F => if o = 0 then s.engStat else w
  | 0x10 => s.readFw o w
  | 0x11 => s.readId o w
  | 0x12 => s.readPwr o w
  | _ => w

/-- MEM_CONFm as read: accesses have waited since the last read by port timing that no rule fixes; WAITS and MAXWAIT only
grow (14 R394, notes/assumptions/31.md). -/
def State.confRead (s : State) (m : Nat) : Word × State :=
  let w := tabGet 0 s.mem.conf m
  let (n, s) := s.free
  let (x, s) := s.free
  let v := if n = 0 then w
    else place (min 0xFFFFF (bits w 31 12 + n)) 12 ||| place (min 0xFFF (max (bits w 11 0) (max 1 x))) 0
  (v, { s with mem := { s.mem with conf := tabSet 0 s.mem.conf m v } })

/-- Operations queued to an engine: those that Table 15.1 names for it (notes/assumptions/111.md). -/
def State.queuedTo (s : State) (k : Nat) : Nat :=
  match k with
  | 0 => ((upto 0 32).map fun r => (s.ring r).fetched.length).foldl (· + ·) 0 + s.ctl.committed.length
  | 1 => s.hist.recalls.length + s.hist.toIndex.length
  | 2 => (s.trig.accQueue.filter fun a => a.started.isNone).length
  | 3 => s.stakes.length
  | 4 => ((upto 0 32).filter fun j => (s.stn j).job.isSome).length
  | 5 => s.survey.reads.length
  | 6 => s.fw.chunkOps.length + s.mem.repairs.length + (if s.fw.act.any fun a => !a.copied then 1 else 0)
  | _ => s.brix.waits.length

/-- ENG_LOADk: the busy cycles of the last orbit, which no rule fixes, and the operations queued now; 0 after reset
(15 Table 15.7). -/
def State.loadRead (s : State) (k : Nat) : Word :=
  let busy := match s.fw.loadOrbit with
    | some n => if (s.engine k).running then Config.engineBusy k n else 0
    | none => 0
  place (busy % 65536) 0 ||| place (min 0xFFFF (s.queuedTo k)) 16

/-- The word of a mapped register as it is now, without the snapshot. -/
def State.fetchWord (s : State) (p : Path) (a : Nat) (r : RegRow) : Word × State :=
  match arrIdx a (Reg.memConf 0) 4 16 with
  | some m => s.confRead m
  | none =>
    match arrIdx a (Reg.engLoad 0) 4 8 with
    | some k => (s.loadRead k, s)
    | none =>
      if Reg.memWinPlain 0 ≤ a ∧ a < Reg.memWinPlain 0 + 0xC00 then s.winRead p (a / 4 % 256)
      else if a = Reg.pwrRailOk ∨ (arrIdx a (Reg.pwrRailV 0) 4 9).isSome then
        let t := s.railsNow
        (t.liveWord p a (t.reg (regKey a (t.instOf p r.inst))), t)
      else (s.liveWord p a (s.reg (regKey a (s.instOf p r.inst))), s)

/-- Sets a bit of a path's TOP_PATH_STAT; the stake path keeps none (17 R467). -/
def State.pathEvent (s : State) (p : Path) (b : Nat) : State :=
  match p with
  | .stake => s
  | _ => s.setPath p { s.path p with stat := (s.path p).stat ||| BitVec.ofNat 5 (2 ^ b) }

/-- A low or a high word of a 64-bit register. -/
def RegKind.isLo : RegKind → Bool
  | .loRO | .loRW => true
  | _ => false
def RegKind.isHi : RegKind → Bool
  | .hiRO | .hiRW => true
  | _ => false

/-- SNAPSHOT_CAPTURE: the whole 64-bit value goes into the path's snapshot (17 R469). -/
def State.capture64 (s : State) (p : Path) (a : Nat) (lo hi : Word) : State :=
  s.setPath p { s.path p with snap := some (a, hi ++ lo) }

/-- A read on an access path: the word, and the state with the read's effects; none for an unmapped address, which
sets UNMAPPED and reads 0 (17 R466, R469). -/
def State.readReg (s : State) (p : Path) (a : Nat) : Option Word × State :=
  match regRow a with
  | none => (none, s.pathEvent p 3)
  | some r =>
    let (w, t) := s.fetchWord p a r
    if r.kind.isLo then
      match regRow (a + 4) with
      | some r' =>
        let (h, u) := t.fetchWord p (a + 4) r'
        (some w, u.capture64 p a w h)
      | none => (some w, t)
    else if r.kind.isHi then
      match (s.path p).snap with
      | some (b, v) => if b + 4 = a then (some (v.extractLsb' 32 32), s) else (some w, t.pathEvent p 0)
      | none => (some w, t.pathEvent p 0)
    else (some w, t)

end Sys2Proof.Machine
end

