-- ==== Sys2Proof/Machine/RegWrite.lean ====
section
/-!
DEFINITION. What a write of a register does: which writes are refused, what the register takes of the word, and what
the write sets going, page by page (17 R466 to R470, R478 to R480; the register tables of every chapter).
-/

namespace Sys2Proof.Machine

open Sys2Proof

/-- A page that TOP_LOCK locks (17 R479). -/
def State.pageLocked (s : State) (pg : Nat) : Bool := 1 ≤ pg && bit (s.reg Reg.topLock) pg

/-- The ring whose block of CTL_ holds an offset, and the offset in the block. -/
def ctlRing (o : Nat) : Option (Nat × Nat) :=
  if 0x100 ≤ o ∧ o < 0x900 then some ((o - 0x100) / 64, (o - 0x100) % 64) else none

/-- The sum of the shares that a write of SPL_Cc_SHARE would make, a share of 0 acting as 1 (10 R296). -/
def State.shareSum (s : State) (c : Nat) (v : Word) : Nat :=
  ((upto 0 8).map fun k => if k = c then max 1 (bits v 7 0) else s.fld1 (Reg.splShare k) 7 0).foldl (· + ·) 0

/-- The class whose share an address is. -/
def shareClass (a : Nat) : Option Nat := arrIdx a (Reg.splShare 0) 32 8

/-- Writes of single registers that their chapters refuse or ignore: TIME_ORBIT_NEXT (02 R46), TRG_WIN (06 R185), a state
of the running sequencer (06 R191), a word of an enabled mask (06 R192), SPL_Cc_SHARE (10 R296). -/
def State.writeRefused (s : State) (p : Path) (a : Nat) (v : Word) : Bool :=
  if a = Reg.timeOrbitNext then !orbitOk v
  else if a = Reg.trgWin then 31 < bits v 3 0 + bits v 8 4
  else if Reg.trgTrvState 0 ≤ a ∧ a < Reg.trgTrvState 0 + 0x400 then s.trig.trv.run
  else if Reg.trgCtrW 0 ≤ a ∧ a < Reg.trgCtrW 0 + 544 then s.maskEn (s.path p).ctrSel
  else match shareClass a with
    | some c => 128 < s.shareSum c v
    | none => false

/-- What a refused write sets: SHARE_ERR (10 R296). -/
def State.onRefused (s : State) (a : Nat) : State :=
  match shareClass a with
  | some _ => s.event Reg.splStat 2
  | none => s

/-- CTL_RINGr_CFG as a write leaves it: the sizes change while the ring is IDLE only, and EN = 1 enables an IDLE ring
only (11 R334). -/
def State.ringCfgWord (s : State) (r : Nat) (old v : Word) : Word :=
  let idle := (s.ring r).st == 0
  let w := if idle then putBits old 7 0 (bits v 7 0) else old
  let w := putBits (putBits w 9 8 (bits v 9 8)) 15 12 (bits v 15 12)
  let en := bit v 16 && (idle || bit old 16)
  putBits w 16 16 (if en then 1 else 0)

/-- The word a register keeps after a write: writable fields take the value, bits of type W1C are cleared where it is 1
(00 R11). -/
def RegRow.stored (r : RegRow) (old v : Word) : Word :=
  let rw := BitVec.ofNat 32 r.rw
  ((old &&& ~~~rw) ||| (v &&& rw)) &&& ~~~(v &&& BitVec.ofNat 32 r.w1c)

/-! ### Pages -/

/-- A path's own registers: selections and TOP_PATH_STAT (17 Table 17.2). -/
def PathState.select (q : PathState) (a : Nat) (v : Word) : Option PathState :=
  if a = Reg.topPathStat then some { q with stat := q.stat &&& ~~~(v.setWidth 5) }
  else if a = Reg.calSel then some { q with calSel := bits v 8 0 }
  else if a = Reg.calSpareSkewSel then some { q with skewSel := bits v 4 0 }
  else if a = Reg.stnSel then some { q with stnSel := bits v 4 0 }
  else if a = Reg.trgCtrSel then some { q with ctrSel := bits v 2 0 }
  else if a = Reg.memWinAddr then some { q with winAddr := bits v 6 0 }
  else if a = Reg.memBankSel then some { q with bankSel := bits v 6 0 }
  else none

/-- TIME_ (02 Tables 2.8 to 2.11): the reference and the servo follow their controls, and MEASURE of the capture register
captures. -/
def State.actTime (s : State) (p : Path) (a : Nat) (v : Word) : State :=
  if a = Reg.timeCapCtl then (if bit v 0 then s.capture p else s)
  else if a = Reg.timeCtl then s.refUpdate.tryTimeEnd
  else if a = Reg.timeServoCtl then s.tryTimeEnd
  else if a = Reg.timeFcLat then s.noteShort
  else s

/-- STN_CTL.APPLY opens an application (05 R153). -/
def State.actStn (s : State) (p : Path) (a : Nat) (v : Word) : State :=
  let j := (s.path p).stnSel
  let st := s.stn j
  if a = Reg.stnCtl && bit v 0 && st.applyAt.isNone then s.setStn j { st with applyAt := some s.time.now } else s

/-- FE_CHc is staged from the write on (03 R82). -/
def State.actFe (s : State) (a : Nat) : State :=
  match arrIdx a (Reg.feCh 0) 4 512 with
  | some c => s.setChan c { s.chan c with feAt := some s.time.now }
  | none => s

/-- CAL_CTL.SAVE saves the temperature sets (04 R128), at once and whether or not E4 is in service: DESIGN CHOICE
(notes/assumptions/115.md); CAL_RUN requests runs (04 R129). -/
def State.actCal (s : State) (a : Nat) (v : Word) : State :=
  if a = Reg.calCtl then (if bit v 2 then s.saveSets else s)
  else if a = Reg.calRun then
    (upto 0 32).foldl (fun t j =>
      if bit v j && (t.stn j).st != 3 then t.setStn j { t.stn j with runReq := true } else t) s
  else s

/-- Hit settings are staged for a group boundary (06 R168). -/
def State.actHit (s : State) (a : Nat) : State :=
  if a = Reg.hitStat then s
  else { s with trig := { s.trig with hitStage := s.trig.hitStage ++ [(a, s.reg a, s.time.now)] } }

/-- TRG_WIN applies to accepts that act 8 or more crossings later (06 R185). -/
def State.stageWin (s : State) (v : Word) : State :=
  { s with trig := { s.trig with
      win := s.winNow
      winNext := (s.trig.winNext.filter fun q => s.time.now < q.2) ++ [(v, s.time.now + 8)] } }

/-- TRG_CTL: EVB 13 to 15 wake when ACC_EN becomes 1, and may sleep when it becomes 0 (14 R397). -/
def State.actTrgCtl (s : State) (old : Word) : State :=
  let en := bit (s.reg Reg.trgCtl) 0
  if en && !bit old 0 then s.evbWake else if !en then s.evbRetention else s

/-- TRG_TRV_CTL: STOP stops and START starts the sequencer in the next crossing (06 R191). -/
def State.actTrv (s : State) (v : Word) : State :=
  let t := if bit v 9 then s.trvHalt else s
  if bit v 8 then t.trvStartAt (bits v 5 0) (t.time.now + 1) else t

/-- TRG_CTR_CTL: a mask enabled looks for its alignment from now on, a disabled one ends its test (06 R193). -/
def State.actCtr (s : State) (old : Word) : State :=
  (upto 0 8).foldl (fun t m =>
    let en := bit (t.reg Reg.trgCtrCtl) m
    if en && !bit old m then t.setMask m ⟨none, 4 * t.time.xcount, 0⟩
    else if !en then t.setMask m { t.mask m with test := none }
    else t) s

/-- TRG_PROF_EN: windows count from the enabling write (06 R196). -/
def State.actProf (s : State) (old : Word) : State :=
  (upto 0 32).foldl (fun t j =>
    if bit (t.reg Reg.trgProfEn) j && !bit old j then t.setStn j { t.stn j with profCnt := 0 } else t) s

/-- TRG_ (06 Table 6.16). -/
def State.actTrg (s : State) (a : Nat) (old v : Word) : State :=
  if a = Reg.trgCtl then s.actTrgCtl old
  else if a = Reg.trgWin then s.stageWin (s.reg a)
  else if a = Reg.trgTrvCtl then s.actTrv v
  else if a = Reg.trgTrvStat then
    (if bit v 9 then { s with trig := { s.trig with trv := { s.trig.trv with alert := false } } } else s)
  else if a = Reg.trgCtrCtl then s.actCtr old
  else if a = Reg.trgProfEn then s.actProf old
  else s

/-- CMP_CTL and CMP_COPY_DIST are kept with the time of their writing (08 R258). -/
def State.actCmp (s : State) (a : Nat) : State :=
  if a = Reg.cmpCtl || a = Reg.cmpCopyDist then
    { s with hist := { s.hist with
        cmpSets := (s.time.now, s.reg Reg.cmpCtl, s.reg Reg.cmpCopyDist) :: s.hist.cmpSets } }
  else s

/-- LNK_CTL: a receiver that is switched off loses its lane; LNK_UL_EN: lanes start training or stop (09 Table 9.11;
notes/assumptions/32.md). -/
def State.actLnk (s : State) (a : Nat) : State :=
  if a = Reg.lnkCtl then
    let t := if !bit (s.reg a) 0 && s.dla.stat != .los then s.rxDown .dla .los else s
    if !bit (t.reg a) 1 && t.dlb.stat != .los then t.rxDown .dlb .los else t
  else if a = Reg.lnkUlEn then s.ulEnable (s.reg a)
  else s

/-- SPL_: the credit limit of a class (10 R299), records that wait for a share that was raised (10 R296), and FULL of the
path (10 Table 10.6). -/
def State.actSpl (s : State) (p : Path) (a : Nat) (v : Word) : State :=
  match arrIdx a (Reg.splCredit 0) 32 8, shareClass a with
  | some c, _ => s.setCls c { s.cls c with limit := v.toNat }
  | none, some c => s.placeWaiting c
  | none, none => match arrIdx a (Reg.splQstat 0) 32 8, p with
    | some _, .stake => s
    | some c, _ =>
      if bit v 17 then s.setPath p { s.path p with full := (s.path p).full &&& ~~~(BitVec.ofNat 8 (2 ^ c)) } else s
    | none, _ => s

/-- BRX_: LEAVE (12 R350); the active head mirrors its settings (12 R357), and a new position or ring size changes what the
hub takes its time from. -/
def State.actBrx (s : State) (a : Nat) (v : Word) : State :=
  if a = Reg.brxLeave then s.leave v
  else if a = Reg.brxCfg then (s.mirrorChange 5 s.settingData).refUpdate.tryJoinEnd
  else if a = Reg.brxFault then s.mirrorChange 5 s.settingData
  else s.tryJoinEnd

/-- CTL_RINGr_CFG (11 R334). -/
def State.actRingCfg (s : State) (r : Nat) (old v : Word) : State :=
  (s.setReg (Reg.ctlCfg r) (s.ringCfgWord r old v)).ringEnable r (bit v 16)

/-- SRV_ (13 Table 13.7). -/
def State.actSrv (s : State) (a : Nat) (old v : Word) : State :=
  if a = Reg.srvCtl then s.srvCtlWrite old v
  else match arrIdx a (Reg.srvPtA 0) 8 64, arrIdx a (Reg.srvPtB 0) 8 64 with
    | some k, _ => s.srvPointWrite k
    | _, some k => s.srvPointWrite k
    | none, none => match arrIdx a (Reg.srvPar 0) 4 64 with
      | some j =>
        match s.survey.job with
        | .converting q false | .settling q false => if s.fld (Reg.srvPtB q) 15 12 = j / 4 then s.srvPointWrite q else s
        | _ => s
      | none => s

/-- Both error counts of a bank are cleared (14 Table 14.8 CE_CLR). -/
def State.clearCe (s : State) (b : Nat) : State := s.setBank b { s.bank b with ce := 0, ue := 0 }

/-- MEM_SLEEP: macros whose bit is cleared wake or stay awake, and macros that may sleep enter retention (14 R397). -/
def State.actSleep (s : State) : State :=
  let en := s.reg Reg.memSleep
  let t := { s with mem := { s.mem with woken := s.mem.woken.filter fun m => bit en m } }
  let t := (t.mem.asleep.filter fun m => !bit en m).foldl (fun t m => t.wake m) t
  t.spoolRetention.evbRetention

/-- MEM_ (14 Tables 14.7, 14.8): the windows, the clearing bits and MEM_SLEEP. -/
def State.actMem (s : State) (p : Path) (a : Nat) (v : Word) : State :=
  if a = Reg.memCtl then
    let t := if bit v 9 then s.clearCe (s.selBank p) else s
    if bit v 8 then { t with mem := { t.mem with conf := [] } } else t
  else if a = Reg.memSleep then s.actSleep
  else s

/-- An aperture of the user area: plain, set, clear (14 R395). -/
def memWindow (a : Nat) : Option (Nat × Nat) :=
  let o := a - Reg.memWinPlain 0
  if Reg.memWinPlain 0 ≤ a ∧ o < 0xC00 then some (o / 1024, o / 4 % 256) else none

/-- What an aperture's write makes of the word. -/
def memWinFun (k : Nat) (v w : Word) : Word :=
  match k with
  | 0 => v
  | 1 => w ||| v
  | _ => w &&& ~~~v

/-- PWR_SOFT_RESET: the key causes a soft reset 10 µs later (16 R453). -/
def State.actPwr (s : State) (a : Nat) (v : Word) : State :=
  if a = Reg.pwrSoftReset && bits v 15 0 = 0xA55A then
    { s with power := { s.power with softReset := some (s.power.softReset.getD s.time.now) } }
  else s

/-- What a write sets going, once its register has taken the word: `old` is the word before. -/
def State.writeActs (s : State) (p : Path) (a : Nat) (old v : Word) : State :=
  match a / 0x1000 with
  | 0x01 => s.actTime p a v
  | 0x02 => s.actStn p a v
  | 0x03 => s.actFe a
  | 0x04 => s.actCal a v
  | 0x05 => s.actHit a
  | 0x06 => s.actTrg a old v
  | 0x07 => if a = Reg.hisScrubDebtLim ∨ a = Reg.hisScrubPeriod then s.noteDebt else s
  | 0x08 => s.actCmp a
  | 0x09 => s.actLnk a
  | 0x0A => s.actSpl p a v
  | 0x0C => s.actBrx a v
  | 0x0D => s.actSrv a old v
  | 0x0E => s.actMem p a v
  | 0x12 => s.actPwr a v
  | _ => s

/-! ### Writes (17 R466, R470, R479, R480) -/

/-- TOP_LOCK: bits can be set, and on an armed path also cleared (17 R480). -/
def State.writeLock (s : State) (armed : Bool) (v : Word) : State :=
  let m := v &&& 0x7FFFE
  s.setReg Reg.topLock (if armed then m else s.reg Reg.topLock ||| m)

/-- TOP_UNLOCK arms or disarms the path; the stake path has no arm (17 R480, Table 17.2). -/
def State.writeUnlock (s : State) (p : Path) (v : Word) : State :=
  match p with
  | .stake => s
  | _ => s.setPath p { s.path p with armed := bits v 15 0 == 0xC35A }

/-- A write to any register but TOP_UNLOCK ends the arm. -/
def State.disarm (s : State) (p : Path) : State := s.setPath p { s.path p with armed := false }

/-- A plain register takes the word. -/
def State.writePlain (s : State) (p : Path) (a : Nat) (r : RegRow) (v : Word) : State :=
  match (s.path p).select a v with
  | some q => match p with
    | .stake => if a = Reg.topPathStat then s else s.setPath p q
    | _ => s.setPath p q
  | none =>
    match memWindow a with
    | some (k, w) => s.winWrite p w (memWinFun k v)
    | none =>
      if s.writeRefused p a v then s.onRefused a
      else
        let key := regKey a (s.instOf p r.inst)
        let old := s.reg key
        match arrIdx a (Reg.ctlCfg 0) 64 32 with
        | some n => s.actRingCfg n old v
        | none => (s.setReg key (r.stored old v)).writeActs p a old v

/-- Both halves of a 64-bit register are written in one cycle: TIME_MER_PERIOD with its old value kept for the samples
already taken (05 R148); the bases of a ring only while it is IDLE (11 R334). -/
def State.write64 (s : State) (a : Nat) (rlo rhi : RegRow) (lo hi : Word) : State :=
  let put (t : State) : State :=
    (t.setReg a (rlo.stored (t.reg a) lo)).setReg (a + 4) (rhi.stored (t.reg (a + 4)) hi)
  if a = Reg.timeMerPeriod then
    put { s with time := { s.time with periods := (s.time.xcount, s.period) :: s.time.periods } }
  else match ctlRing (a - 0xB000) with
    | some (r, _) => if (s.ring r).st = 0 then put s else s
    | none => put s

/-- A write to the high word of a 64-bit register (17 R470). -/
def State.writeHigh (s : State) (p : Path) (a : Nat) (r : RegRow) (v : Word) : State :=
  match regRow (a - 4) with
  | none => s
  | some rlo =>
    let held := match (s.path p).shadow with
      | some (b, lo) => if b + 4 = a then some lo else none
      | none => none
    match held with
    | some lo => (s.setPath p { s.path p with shadow := none }).write64 (a - 4) rlo r lo v
    | none => (s.pathEvent p 1).write64 (a - 4) rlo r (s.reg (a - 4)) v

/-- A write of a mapped register in a page that is not locked; the arm is gone by now. -/
def State.writeMapped (s : State) (p : Path) (a : Nat) (r : RegRow) (v : Word) : State :=
  match r.kind with
  | .loRW => s.setPath p { s.path p with shadow := some (a, v) }
  | .hiRW => s.writeHigh p a r v
  | .loRO | .hiRO => s
  | .plain => s.writePlain p a r v

/-- A write on an access path. -/
def State.writeReg (s : State) (p : Path) (a : Nat) (v : Word) : State :=
  match regRow a with
  | none => s.pathEvent p 3
  | some r =>
    if a = Reg.topUnlock then s.writeUnlock p v
    else
      let armed := (s.path p).armed
      let t := s.disarm p
      if t.pageLocked (a / 0x1000) then t.pathEvent p 2
      else if a = Reg.topLock then t.writeLock armed v
      else t.writeMapped p a r v

/-- The path serves: the SPI port and the registers from the end of FUSE; in FAULT the SPI port only (16 R456, R459). -/
def State.served (s : State) (p : Path) : Bool :=
  match p with
  | .spi => s.past .fuse
  | _ => s.past .fuse && !s.inFault

/-- A write as a path receives it; a path that does not serve ignores it (16 R456). -/
def State.pathWrite (s : State) (p : Path) (a : Nat) (v : Word) : State :=
  if s.served p then s.writeReg p a v else s

end Sys2Proof.Machine
end

