-- ==== Sys2Proof/Machine/Access.lean ====
section
/-!
DEFINITION. The accesses that reach the registers: SPI transactions, REG_ACCESS messages, and the writes of single
registers that are commands of their own (17 R471 to R477).
-/

namespace Sys2Proof.Machine

open Sys2Proof

/-! ### The setup SPI port (17 R471 to R473) -/

/-- Reads `n` words of a burst and drives each on SPI_MISO; an unmapped word is 0. -/
def State.spiBurst (s : State) (a : Nat) : Nat → State
  | 0 => s
  | n + 1 =>
    let (w, t) := s.readReg .spi a
    (t.emit (.spiWord (w.getD 0))).spiBurst (a + 4) n

/-- An address that a transaction may carry: [23:20] and [1:0] are 0 (17 Table 17.3). -/
def spiAddrOk (addr : BitVec 24) : Bool := addr.toNat < 0x100000 && addr.toNat % 4 == 0

/-- An aborted transaction sets SPI_ABORT (17 R473). -/
def State.spiAbort (s : State) : State := s.pathEvent .spi 4

/-- Words whose first bit has left when `bits` bits have been clocked after the address: 8 of DUMMY, then 32 a word
(17 R472, R473). -/
def spiWordsOut (bits : Nat) : Nat := if bits ≤ 8 then 0 else ceilDiv (bits - 8) 32

/-- SPI_READ: a transaction with a CMD byte other than WRITE, of `bits` bits after its address (17 R472, R473). -/
def execSpiRead (cmd : Byte) (addr : BitVec 24) (bits : Nat) (s : State) : Host.Outcome State Fault Refusal :=
  if !s.served .spi then .next s
  else if cmd != 0x03 || !spiAddrOk addr then .next s.spiAbort
  else
    let t := s.spiBurst addr.toNat (spiWordsOut bits)
    .next (if 8 < bits && (bits - 8) % 32 != 0 then t.spiAbort else t)

/-- Writes the words of a burst, each as its bit 0 is sampled. -/
def State.spiStore (s : State) (a : Nat) : List Word → State
  | [] => s
  | w :: ws => (s.writeReg .spi a w).spiStore (a + 4) ws

/-- SPI_WRITE: a transaction with a CMD byte other than READ, of whole words and `tailBits` bits of one more
(17 R472, R473). -/
def execSpiWrite (cmd : Byte) (addr : BitVec 24) (words : List Word) (tailBits : Nat) (s : State) :
    Host.Outcome State Fault Refusal :=
  if !s.served .spi then .next s
  else if cmd != 0x02 || !spiAddrOk addr then .next s.spiAbort
  else
    let t := s.spiStore addr.toNat words
    .next (if tailBits % 32 != 0 then t.spiAbort else t)

/-! ### REG_ACCESS (17 R474 to R477) -/

/-- The bytes of a control message without its CRC (11 Table 11.1). -/
def messageBytes (type : Nat) (body : List Byte) : List Byte :=
  let h := leBytes 1 type ++ leBytes 2 body.length
  h ++ [crc8 h] ++ body

/-- Whether a REG_ACCESS body follows the rules of 17 R474. -/
def regAccessOk (b : List Byte) : Bool :=
  let op := byteAt b 2
  let n := byteAt b 3
  let a := le b 4 4
  1 ≤ n && n ≤ 16 && a < 0x100000 && a % 4 == 0 &&
    (if op = 1 then b.length == 8 else op == 2 && b.length == 8 + 4 * n)

/-- Reads `n` words on the downlink path: the words, 0 for an unmapped one, and whether one was unmapped. -/
def State.readWords (s : State) (a : Nat) : Nat → List Byte × Bool × State
  | 0 => ([], false, s)
  | n + 1 =>
    let (w, t) := s.readReg .downlink a
    let (bs, u, t) := t.readWords (a + 4) n
    (leBytes 4 (w.getD 0).toNat ++ bs, w.isNone || u, t)

/-- Writes words on the downlink path: whether one was unmapped, and whether one lay in a locked page. -/
def State.writeWords (s : State) (a : Nat) : List Nat → Bool × Bool × State
  | [] => (false, false, s)
  | v :: vs =>
    let un := (regRow a).isNone
    let lk := !un && a != Reg.topUnlock && s.pageLocked (a / 0x1000)
    let (u, l, t) := (s.writeReg .downlink a (BitVec.ofNat 32 v)).writeWords (a + 4) vs
    (un || u, lk || l, t)

/-- Discards a reply that the class-0 share does not take (17 R477). -/
def State.sendReply (s : State) (reply : List Byte) : State :=
  match s.tryShare 0 0 fun t => t.placeMessage 0x04 reply with
  | some t => t
  | none => { s with downlink := { s.downlink with replyDrop := satInc 0xFFFF s.downlink.replyDrop } }

/-- A REG_REPLY body (17 R475). -/
def State.replyBody (s : State) (b : List Byte) (rstatus : Nat) (data : List Byte) : List Byte :=
  b.take 8 ++ leBytes 1 rstatus ++ leBytes 3 0 ++ leBytes 4 (s.pathStat .downlink).toNat ++ data

/-- The accesses of a REG_ACCESS, and the reply to it. -/
def State.regPerform (s : State) (b : List Byte) : List Byte × State :=
  if !regAccessOk b then (s.replyBody b 3 [], s)
  else
    let n := byteAt b 3
    let a := le b 4 4
    if byteAt b 2 = 1 then
      let (data, un, t) := s.readWords a n
      (t.replyBody b (if un then 1 else 0) data, t)
    else
      let (un, lk, t) := s.writeWords a ((upto 0 n).map fun i => le b (8 + 4 * i) 4)
      (t.replyBody b (if un then 1 else if lk then 2 else 0) [], t)

/-- A REG_ACCESS message: a repeated one gets its stored reply and is not performed again (17 R474 to R476). -/
def State.regAccess (s : State) (b : List Byte) : State :=
  if !s.served .downlink then s
  else if b.length < 8 ∨ 72 < b.length then s.dropMessage
  else
    let atag := le b 0 2
    let crc := crc16 (messageBytes 0x03 b)
    match s.ctl.kept.find? fun k => atag != 0 && k.atag == atag && k.crc == crc with
    | some k => s.sendReply k.reply
    | none =>
      let (reply, t) := s.regPerform b
      let t := if atag = 0 then t
        else { t with ctl := { t.ctl with kept := (⟨atag, crc, reply⟩ :: t.ctl.kept).take 16 } }
      t.sendReply reply

/-- REG_ACCESS_READ: receipt of a REG_ACCESS message (17 R474). -/
def execRegAccessRead (body : List Byte) (s : State) : Host.Outcome State Fault Refusal := .next (s.regAccess body)

/-- REG_ACCESS_WRITE: receipt of a REG_ACCESS message (17 R474). -/
def execRegAccessWrite (body : List Byte) (s : State) : Host.Outcome State Fault Refusal := .next (s.regAccess body)

/-! ### Writes of single registers (17 R468) -/

/-- REGISTER_WRITE: a write to any register (17 R466, R468). -/
def execRegisterWrite (p : Path) (addr : Nat) (v : Word) (s : State) : Host.Outcome State Fault Refusal :=
  .next (s.pathWrite p addr v)

/-- TOP_LOCK_WRITE (17 R479, R480). -/
def execTopLockWrite (p : Path) (v : Word) (s : State) : Host.Outcome State Fault Refusal :=
  .next (s.pathWrite p Reg.topLock v)

/-- TOP_UNLOCK (17 R480). -/
def execTopUnlock (p : Path) (v : Word) (s : State) : Host.Outcome State Fault Refusal :=
  .next (s.pathWrite p Reg.topUnlock v)

/-- CAL_RUN_REQUEST (04 R129). -/
def execCalRunRequest (p : Path) (v : Word) (s : State) : Host.Outcome State Fault Refusal :=
  .next (s.pathWrite p Reg.calRun v)

/-- SAVE: a write of CAL_CTL with SAVE = 1 (04 R128). -/
def execSave (p : Path) (v : Word) (s : State) : Host.Outcome State Fault Refusal :=
  .next (s.pathWrite p Reg.calCtl (v ||| bitAt 2 true))

/-- FE_CH_WRITE (03 R82). -/
def execFeChWrite (p : Path) (ch : Nat) (v : Word) (s : State) : Host.Outcome State Fault Refusal :=
  .next (s.pathWrite p (Reg.feCh (ch % 512)) v)

/-- CAPTURE: a write of TIME_CAP_CTL with CAPTURE = 1 (02 R77). -/
def execCapture (p : Path) (v : Word) (s : State) : Host.Outcome State Fault Refusal :=
  .next (s.pathWrite p Reg.timeCapCtl (v ||| bitAt 0 true))

/-- TIME_ORBIT_NEXT_WRITE (02 R46). -/
def execTimeOrbitNextWrite (p : Path) (v : Word) (s : State) : Host.Outcome State Fault Refusal :=
  .next (s.pathWrite p Reg.timeOrbitNext v)

/-- APPLY: a write of STN_CTL with APPLY = 1 (05 R153). -/
def execApply (p : Path) (v : Word) (s : State) : Host.Outcome State Fault Refusal :=
  .next (s.pathWrite p Reg.stnCtl (v ||| bitAt 0 true))

/-- STN_STAGED_WRITE: a write to offset `offset` of the STN_ page (05 R153). -/
def execStnStagedWrite (p : Path) (offset : Nat) (v : Word) (s : State) : Host.Outcome State Fault Refusal :=
  .next (s.pathWrite p (Reg.stnSel + offset % 0x1000) v)

/-- TRG_WIN_WRITE (06 R185). -/
def execTrgWinWrite (p : Path) (v : Word) (s : State) : Host.Outcome State Fault Refusal :=
  .next (s.pathWrite p Reg.trgWin v)

/-- TRV_START: a write of TRG_TRV_CTL with START = 1 (06 R191). -/
def execTrvStart (p : Path) (v : Word) (s : State) : Host.Outcome State Fault Refusal :=
  .next (s.pathWrite p Reg.trgTrvCtl (v ||| bitAt 8 true))

/-- TRV_STOP: a write of TRG_TRV_CTL with STOP = 1 (06 R191). -/
def execTrvStop (p : Path) (v : Word) (s : State) : Host.Outcome State Fault Refusal :=
  .next (s.pathWrite p Reg.trgTrvCtl (v ||| bitAt 9 true))

/-- UL_EN_WRITE (09 R273). -/
def execUlEnWrite (p : Path) (v : Word) (s : State) : Host.Outcome State Fault Refusal :=
  .next (s.pathWrite p Reg.lnkUlEn v)

/-- SPL_CREDIT_WRITE (10 R298). -/
def execSplCreditWrite (p : Path) (cls : Nat) (v : Word) (s : State) : Host.Outcome State Fault Refusal :=
  .next (s.pathWrite p (Reg.splCredit (cls % 8)) v)

/-- SPL_SHARE_WRITE (10 R296). -/
def execSplShareWrite (p : Path) (cls : Nat) (v : Word) (s : State) : Host.Outcome State Fault Refusal :=
  .next (s.pathWrite p (Reg.splShare (cls % 8)) v)

/-- RING_CFG_WRITE (11 R334). -/
def execRingCfgWrite (p : Path) (ring : Nat) (v : Word) (s : State) : Host.Outcome State Fault Refusal :=
  .next (s.pathWrite p (Reg.ctlCfg (ring % 32)) v)

/-- LEAVE: a write of BRX_LEAVE with LEAVE = 1 (12 R350). -/
def execLeave (p : Path) (v : Word) (s : State) : Host.Outcome State Fault Refusal :=
  .next (s.pathWrite p Reg.brxLeave (v ||| bitAt 0 true))

/-- SRV_START: a write of SRV_CTL with START = 1 (13 R375). -/
def execSrvStart (p : Path) (v : Word) (s : State) : Host.Outcome State Fault Refusal :=
  .next (s.pathWrite p Reg.srvCtl (v ||| bitAt 8 true))

/-- SRV_STOP: a write of SRV_CTL with STOP = 1 (13 R375). -/
def execSrvStop (p : Path) (v : Word) (s : State) : Host.Outcome State Fault Refusal :=
  .next (s.pathWrite p Reg.srvCtl (v ||| bitAt 9 true))

/-- SELFCAL: a write of SRV_CTL with SELFCAL = 1 (13 R385). -/
def execSelfcal (p : Path) (v : Word) (s : State) : Host.Outcome State Fault Refusal :=
  .next (s.pathWrite p Reg.srvCtl (v ||| bitAt 10 true))

/-- MEM_WIN_PLAIN (14 R395). -/
def execMemWinPlain (p : Path) (w : Nat) (v : Word) (s : State) : Host.Outcome State Fault Refusal :=
  .next (s.pathWrite p (Reg.memWinPlain (w % 256)) v)

/-- MEM_WIN_SET (14 R395). -/
def execMemWinSet (p : Path) (w : Nat) (v : Word) (s : State) : Host.Outcome State Fault Refusal :=
  .next (s.pathWrite p (Reg.memWinSet (w % 256)) v)

/-- MEM_WIN_CLR (14 R395). -/
def execMemWinClr (p : Path) (w : Nat) (v : Word) (s : State) : Host.Outcome State Fault Refusal :=
  .next (s.pathWrite p (Reg.memWinClr (w % 256)) v)

/-- CE_CLR: a write of MEM_CTL with CE_CLR = 1 (14 R419). -/
def execCeClr (p : Path) (v : Word) (s : State) : Host.Outcome State Fault Refusal :=
  .next (s.pathWrite p Reg.memCtl (v ||| bitAt 9 true))

/-- CONF_CLR: a write of MEM_CTL with CONF_CLR = 1 (14 R419). -/
def execConfClr (p : Path) (v : Word) (s : State) : Host.Outcome State Fault Refusal :=
  .next (s.pathWrite p Reg.memCtl (v ||| bitAt 8 true))

end Sys2Proof.Machine
end

