-- ==== Sys2Proof/Machine/Identity.lean ====
section
/-!
DEFINITION. Attestation: the words of CONFIG_DIGEST and the signed record (15 R438, R439).
-/

namespace Sys2Proof.Machine

open Sys2Proof

/-- Registers that CONFIG_DIGEST leaves out: the per-path selections and the apertures of the user area (15 R439). -/
def digestExcluded (a : Nat) : Bool :=
  [Reg.calSel, Reg.stnSel, Reg.trgCtrSel, Reg.calSpareSkewSel, Reg.memWinAddr, Reg.memBankSel].contains a ||
    (memWindow a).isSome

/-- The words of a page that hold a field of type RW, by ascending offset, with the bits of those fields. -/
def pageRwWords (pg : Nat) : List (Nat × Word × RegInst) :=
  (upto 0 1024).filterMap fun i =>
    let a := 0x1000 * pg + 4 * i
    match regRow a with
    | some r => if r.rw = 0 || digestExcluded a then none else some (a, BitVec.ofNat 32 r.rw, r.inst)
    | none => none

/-- The RW fields of a word as a read on the downlink path would return them. -/
def State.rwValue (s : State) (a inst : Nat) (m : Word) : Word :=
  let w := s.reg (regKey a inst)
  let v :=
    if a = Reg.timeFcLat then place (max 16 (bits w 7 0)) 0
    else match arrIdx a (Reg.splCredit 0) 32 8 with
      | some c => BitVec.ofNat 32 (s.cls c).limit
      | none => w
  v &&& m

/-- Words of one instance. -/
def State.instWords (s : State) (ws : List (Nat × Word × RegInst)) (j : Nat) : List Byte :=
  ws.flatMap fun q => leBytes 4 (s.rwValue q.1 j q.2.1).toNat

/-- The words of a page: those of instances once for each instance, in ascending instance order. -/
def State.pageConfig (s : State) (pg : Nat) : List Byte :=
  let ws := pageRwWords pg
  let inst := ws.filter fun q => q.2.2 != .none
  match inst with
  | [] => s.instWords ws 0
  | (first, _, k) :: _ =>
    s.instWords (ws.filter fun q => q.2.2 == .none && q.1 < first) 0 ++
      (upto 0 (if k = .station then 32 else 8)).flatMap (s.instWords inst) ++
      s.instWords (ws.filter fun q => q.2.2 == .none && first < q.1) 0

/-- The sequence that CONFIG_DIGEST covers. -/
def State.configWords (s : State) : List Byte := (upto 0 0x13).flatMap s.pageConfig

/-- PART of an attestation record: FH512-H8C, or FH512-H8E. -/
def State.partBytes (s : State) : List Byte :=
  let tail : Nat := if bits (s.reg Reg.idPart) 7 0 = 2 then 0x45 else 0x43
  ([0x46, 0x48, 0x35, 0x31, 0x32, 0x2D, 0x48, 0x38, tail, 0, 0, 0].map fun (b : Nat) => BitVec.ofNat 8 b)

/-- Bytes 0 to 191 of an attestation record; `settings` is SETTINGS_DIGEST. FLAGS[2] is the bit BOOT_FALLBACK as it reads, or a
fallback from probation since reset (15 Table 15.6, Table 15.8). -/
def State.attestBody (s : State) (nonce settings : List Byte) : List Byte :=
  let w := s.fw
  let flags := bitAt 0 w.probation ||| bitAt 1 (w.runSlot == 0) |||
    bitAt 2 (bit (s.reg Reg.fwStat) 9 || w.fallbackSinceReset)
  leBytes 2 0xA77E ++ leBytes 1 1 ++ leBytes 1 flags.toNat ++ s.partBytes ++
    leBytes 4 (s.reg Reg.idSerial).toNat ++ leBytes 4 (s.reg (Reg.idSerial + 4)).toNat ++ nonce ++ leBytes 8 s.datum ++
    leBytes 4 w.runVer ++ leBytes 4 w.runSec ++ leBytes 4 w.minSec ++ leBytes 1 w.runSlot ++ leBytes 1 w.bootSlot ++
    leBytes 1 w.revoked.toNat ++ leBytes 1 0 ++ (w.runDigest ++ leBytes 32 0).take 32 ++ sha256 s.configWords ++ settings ++
    leBytes 32 0

/-- The 256 bytes of an attestation record, with the descriptor's nonce and the device's signature (15 Table 15.6). The layout of
the settings area is not given: its bytes are a free function of what it holds (notes/assumptions/4.md). -/
def State.attestRecord (s : State) (f : Fetched) : List Byte :=
  let body := s.attestBody ((upto 0 16).map fun i => BitVec.ofNat 8 (f.body i 1)) (sha256 (Config.settingsImage s.fw.settings))
  body ++ leBytes 64 (Config.deviceSig body)

/-- An accepted ATTEST (15 R438). -/
def State.attest (s : State) (r : Nat) (f : Fetched) : State :=
  let addr := f.body 16 8
  if f.body 24 4 < 256 ∨ !f.zero 28 20 then s.finish r f Status.badDescriptor
  else if addr % 8 ≠ 0 then s.finish r f Status.badAddress
  else
    let t := s.hostWrite 7 addr (s.attestRecord f)
    t.commit r f.sq Status.ok f.tag false [] [(7, t.openSeq 7)] none

/-- ATTEST: it waits while the class-7 share cannot take the record. -/
def execAttest (ring : Nat) (s : State) : Host.Outcome State Fault Refusal :=
  match s.acceptNext ring with
  | some f =>
    match s.tryShare 7 0 fun t => t.acceptRun ring f fun f t => t.attest ring f with
    | some t => whenDue s (f.opcode == 0x49 && s.engineUp 6) t
    | none => .next s
  | none => .next s

end Sys2Proof.Machine
end

