-- ==== Sys2Proof/Machine/Power.lean ====
section
/-!
DEFINITION. Power, clocks, reset and start-up (16), clock stretches (01 R32 to R35), and the boundary-scan port.
-/

namespace Sys2Proof.Machine

open Sys2Proof

/-! ### Resets (16 R450 to R453) -/

/-- What every reset leaves: the configuration store survives, everything else is as after power-on, the measured voltages too,
which read 0 until they are next measured (16 R451, R462). The model's own records go on. -/
def State.resetBase (s : State) : State :=
  { State.reset with
    fw := { FwState.init with
      slots := s.fw.slots.foldl (fun t q => tabSet Slot.init t q.1 { q.2 with since := 0 }) []
      settings := s.fw.settings, idRevoked := s.fw.idRevoked }
    tx := s.tx
    fresh := s.fresh
    pending := s.pending }

/-- Power reset: the sequence restarts at RAILS, and Plumb from 0 (16 Table 16.2). `rails` names the rails that were below
their fall threshold; none at power-on. -/
def State.powerReset (s : State) (rails : BitVec 9) : State :=
  { s.resetBase with scan := .bypass }.setReg Reg.pwrResetCause (place rails.toNat 16 ||| 1)

/-- A pin or soft reset: the sequence restarts at FUSE, and Plumb runs on (16 Table 16.2, Table 16.8). -/
def State.warmReset (s : State) (last : Nat) : State :=
  let t := s.resetBase
  let c := s.reg Reg.pwrResetCause
  { t with
    power := { t.power with phase := .fuse }
    time := { t.time with plumb := s.time.plumb }
    scan := if s.scan = ScanInstr.extest ∨ s.scan = ScanInstr.acExtest then .bypass else s.scan }.setReg Reg.pwrResetCause
      (putBits (putBits c 15 8 (satInc 0xFF (bits c 15 8))) 2 0 last)

/-- POWER_RESET. -/
def execPowerReset (rails : BitVec 9) (s : State) : Host.Outcome State Fault Refusal := .next (s.powerReset rails)

/-- PIN_RESET: a low pulse of `lowNs` on RESET_N, and its rising edge. A pulse of 0.4 to 0.5 µs, which the board must not
apply, resets the hub or not (16 R452). In a power reset the pin changes nothing (notes/assumptions/33.md). -/
def execPinReset (lowNs : Nat) (s : State) : Host.Outcome State Fault Refusal :=
  let resets := 500 ≤ lowNs || (400 ≤ lowNs && Config.pinResetShort lowNs)
  .next (if resets && s.power.phase != .rails then s.warmReset 2 else s)

/-- The 10 µs after a key write to PWR_SOFT_RESET have passed (16 R453). -/
def State.softResetDue (s : State) : Bool :=
  match s.power.softReset with
  | some a => a + s.micros 10 ≤ s.time.now
  | none => false

/-- SOFT_RESET: a write to PWR_SOFT_RESET. With the key it brings the reset 10 µs later, as time passes; the REG_REPLY of a write
on the downlink path leaves meanwhile (16 R453). -/
def execSoftReset (p : Path) (v : Word) (s : State) : Host.Outcome State Fault Refusal :=
  .next (s.pathWrite p Reg.pwrSoftReset v)

/-- What the hub does on an empty queue: what the crossing at hand still has to send leaves, it passes, and a soft reset
asked for 10 µs ago takes place (notes/assumptions/3.md). -/
def State.idle (s : State) : State :=
  let t := (s.trainTick.brixTick.dcRelease true).copyLate.readWaiting.tick.noteDebt
  if t.softResetDue then t.warmReset 4 else t

/-! ### Start-up phases (16 R454 to R459) -/

/-- Start-up goes on to a phase. -/
def State.toPhase (s : State) (p : Phase) : State := { s with power := { s.power with phase := p } }

/-- Start-up stops in FAULT (16 R459). -/
def State.toFault (s : State) (phase detail : Nat) : State :=
  { s with power := { s.power with phase := .fault, faultPhase := phase, faultDetail := detail } }

/-- RAILS_END: 2.0 ms after the last rail passed its rise threshold; every rail has (16 R445). -/
def execRailsEnd (s : State) : Host.Outcome State Fault Refusal :=
  whenDue s (s.power.phase == .rails) ((s.measureRails railRise).toPhase .fuse)

/-- RAIL_LOW_EVT: a rail measured outside its tolerance for 1 ms; below its fall threshold for so long it is a power reset
(16 R445). -/
def execRailLowEvt (rail mV : Nat) (s : State) : Host.Outcome State Fault Refusal :=
  let t := s.setRail rail mV mV
  whenDue s (rail < 9 && s.power.phase != .rails && !t.railOk rail)
    (if mV < railFall rail then s.powerReset (BitVec.ofNat 9 (2 ^ rail)) else t.event Reg.pwrStat 4)

/-- Words that phase FUSE loads from the identity area: address and bits (17 R465; 09 Table 9.11, 12 Table 12.7,
15 Table 15.7). -/
def factoryRegs : List (Nat × Word) :=
  [(Reg.lnkDlaRxdly, 0xFFFFFF), (Reg.lnkDlbRxdly, 0xFFFFFF), (Reg.brxDlyP, 0xFFFFFFFF), (Reg.brxDlyQ, 0xFFFFFFFF),
    (Reg.idSerial, 0xFFFFFFFF), (Reg.idSerial + 4, 0xFFFFFFFF)] ++
    (upto 0 32).map (fun n => (Reg.lnkUlTxdly n, 0xFFFFFF)) ++ (upto 0 8).map (fun w => (Reg.idPubkey w, 0xFFFFFFFF))

/-- ID_PART: 0x0512 and part 1 or 2 (15 Table 15.7). -/
def partWord : Word := 0x05120000 ||| (if bit (Config.factory Reg.idPart) 0 then 2 else 1)

/-- The Factory registers are loaded. -/
def State.loadFactory (s : State) : State :=
  factoryRegs.foldl (fun t q => t.setReg q.1 (Config.factory q.1 &&& q.2)) (s.setReg Reg.idPart partWord)

/-- FUSE_END: the SPI port, the downlink receivers, the PLL and uplink training start (16 R455). -/
def execFuseEnd (s : State) : Host.Outcome State Fault Refusal :=
  let t := s.loadFactory.toPhase .settings
  whenDue s (s.power.phase == .fuse) { t with power := { t.power with pllAcq := true } }

/-- A settings copy that can be used. -/
def copyOk (c : CopyRead) : Bool := c.check && c.read.bad.isNone

/-- What the settings area gives the hub, with the golden fallback when both copies fail; a copy that fails is recorded
(16 R459, Table 16.4). The revocation bits stand in the identity area (15 Table 15.2), and FW_MIN_SEC never falls (15 R434;
notes/assumptions/109.md). -/
def State.loadSettings (s : State) (aOk bOk : Bool) : State :=
  let t := { s with power := { s.power with copyAOk := aOk, copyBOk := bOk } }
  let t := if aOk && bOk then t else { t with power := { t.power with faultPhase := 2, faultDetail := 0 } }
  let w := { t.fw with minSec := t.fw.settings.minSec, revoked := t.fw.idRevoked }
  if aOk || bOk then { t with fw := { w with bootSlot := w.settings.bootSlot } }
  else
    { t with
      fw := { w with settings := { Settings.init with minSec := w.minSec } }
      power := { t.power with settingsBad := true } }.event Reg.pwrStat 1

/-- SETTINGS_END: both copies have been read. -/
def execSettingsEnd (a b : CopyRead) (s : State) : Host.Outcome State Fault Refusal :=
  whenDue s (s.power.phase == .settings)
    ((((s.storeRead a.read).storeRead b.read).loadSettings (copyOk a) (copyOk b)).toPhase .memtest)

/-- A column or line of a bank takes a spare; with none left it stays in use and REPAIR_EXHAUSTED is set (14 R406, R411;
16 Table 16.4). -/
def State.takeSpare (s : State) (b target : Nat) : State :=
  if s.spareLeft b = 0 then s.event Reg.memStat 4
  else
    let k := s.bank b
    s.setBank b (if largeBank b then { k with loaded := k.loaded + 1, columns := k.columns ++ [target] }
      else { k with loaded := k.loaded + 1, lines := k.lines ++ [target] })

/-- The failing lines and columns that a test finds take spares; the first bank that has none left for one cannot be covered
(16 Table 16.4). -/
def State.cover (s : State) : List (Nat × Nat) → State × Option Nat
  | [] => (s, none)
  | (b, target) :: rest => if s.spareLeft b = 0 then (s, some b) else (s.takeSpare b target).cover rest

/-- MEMTEST_END: recorded column repairs are applied, the destructive march leaves every bank cleared, the user area and the
upset log in CTRL with them (what the later phases fill is empty by now), failing lines and columns named in `repairs` take
spares, and a bank that cannot be covered stops start-up (14 R404; 16 Table 16.3, Table 16.4). -/
def State.memtest (s : State) (repairs : List (Nat × Nat)) (failed : Option Nat) : State :=
  let t := s.fw.settings.columns.foldl (fun t q => t.takeSpare q.1 q.2) { s with mem := { s.mem with user := [], log := [] } }
  let (t, short) := t.cover repairs
  match failed.orElse fun _ => short with
  | some b => t.toFault 3 b
  | none => t.toPhase .stack

/-- MEMTEST_END. -/
def execMemtestEnd (repairs : List (Nat × Nat)) (failed : Option Nat) (s : State) : Host.Outcome State Fault Refusal :=
  whenDue s (s.power.phase == .memtest && repairs.all (fun q => q.1 < 76) && failed.all (· < 76))
    (s.memtest repairs failed)

/-- The recorded row repairs at start-up, oldest first: as far as their bank group has spare rows they are made hard and leave the
record; a row that finds no spare, which a soft repair would take as well, stays in use, and REPAIR_EXHAUSTED is set
(14 R411; 16 Table 16.4; notes/assumptions/28.md). -/
def State.applyRows (s : State) : List Nat → State
  | [] => s
  | row :: rest =>
    if s.spareRow row = 0 then (s.event Reg.memStat 4).applyRows rest
    else
      let f := s.fw.settings
      let m := s.mem
      State.applyRows { s with
        mem := { m with
          spareRows := listSet m.spareRows (Config.rowGroup row) (s.spareRow row - 1)
          hardRepairs := satInc 0xFF m.hardRepairs, pendingHard := m.pendingHard - 1 }
        fw := { s.fw with settings := { f with rows := f.rows.erase row } } } rest

/-- STACK_END: the PHY is trained, recorded repairs are made hard, the index is cleared and the retained region written; one of
the three that fails stops start-up. From the stack come the repairs made hard before and its spare rows by bank group (14 R410,
R411; 16 Tables 16.3, 16.4). -/
def execStackEnd (phy index region : Bool) (before : Nat) (spares : List Nat) (s : State) : Host.Outcome State Fault Refusal :=
  let t := { s with
    mem := { s.mem with
      softRepairs := 0, hardRepairs := min 0xFF before, pendingHard := s.fw.settings.rows.length, spareRows := spares }
    hist := { s.hist with scrubStart := s.time.now } }.applyRows s.fw.settings.rows
  whenDue s (s.power.phase == .stack) (if phy && index && region then t.toPhase .image else s.toFault 4 0xFF)

/-- The check of a slot at start-up: its header and the digest of its payload, whatever state the slot was in; of the golden
slot's header MARK, FORMAT and PART_ID only (15 R435). -/
def State.bootable (s : State) (i : Nat) (readable : Bool) : Bool :=
  readable && (s.slot i).digestOk &&
    (if i = 0 then hdrGolden (s.slot i).header else (s.headerFails (s.slot i).header).isNone)

/-- Every engine is in service in code region 0 (15 R435). -/
def State.startEngines (s : State) : State :=
  (upto 0 8).foldl (fun t k => t.setEngine k { Engine.init with running := true }) s

/-- The engines start from a slot, E4 loads the temperature sets, and a settings copy that failed is rewritten (16 Table 16.3,
Table 16.4). -/
def State.boot (s : State) (i : Nat) : State :=
  let t := (s.startEngines.runImage i).loadSets
  { t with power := { t.power with copyAOk := true, copyBOk := true } }

/-- What IMAGE does: ID_HUB_ID is loaded, and the boot slot starts, or the golden slot with BOOT_FALLBACK, or no engine with
BOOT_FAIL (15 R435; 16 Table 16.3). -/
def State.image (s : State) (boot golden : StoreRead) : State :=
  let s := s.setFld Reg.idHubId 15 0 (s.fw.settings.hubId.getD 0)
  let i := if s.power.settingsBad then 0 else s.fw.bootSlot
  let startGolden (t : State) : State :=
    let t := t.storeRead golden
    if t.bootable 0 golden.bad.isNone then t.boot 0
    else
      let t := t.slotBad 0
      { t with power := { t.power with bootFail := true, faultPhase := 5, faultDetail := 0xFE } }
  if i = 0 then startGolden s
  else
    let t := s.storeRead boot
    if t.bootable i boot.bad.isNone then t.boot i
    else
      let t := (t.slotBad i).event Reg.fwStat 9
      startGolden { t with fw := { t.fw with bootFellBack := true } }

/-- IMAGE_END: `boot` and `golden` say what the pages of those slots were found to hold. -/
def execImageEnd (boot golden : StoreRead) (s : State) : Host.Outcome State Fault Refusal :=
  whenDue s (s.power.phase == .image) ((s.image boot golden).toPhase .links)

/-- The reference condition under which LINKS ends (16 R455). -/
def State.linksMet (s : State) : Bool :=
  let lane := s.laneUp s.xchLane
  match s.refSel with
  | 2 => (s.rxUp .brixP || s.rxUp .brixQ) && !s.brix.bypassOpen && lane
  | 3 => s.framing.isNone || lane
  | _ => s.refDl.isSome && lane

/-- LINKS_END: phase TIME begins, and ends at once when nothing is to be waited for (16 R455, Table 16.3). -/
def execLinksEnd (s : State) : Host.Outcome State Fault Refusal :=
  whenDue s (s.power.phase == .links && s.time.sampling && s.linksMet) (s.toPhase .time).tryTimeEnd

/-! ### The sampling PLL (16 R448, R449, R455) -/

/-- PLL_LOCK: the PLL locks to the reference and gives the lanes their bit clock: enabled uplinks start training
(16 R448, R455; 09 R276). -/
def execPllLock (s : State) : Host.Outcome State Fault Refusal :=
  let t := { s with power := { s.power with pllLocked := true, pllAcq := false } }
  whenDue s (s.past .fuse && !s.power.pllLocked && s.refUsable) (t.ulEnable (s.reg Reg.lnkUlEn))

/-- PLL_UNLOCK: lock is lost while a usable reference is present (16 R449). -/
def execPllUnlock (s : State) : Host.Outcome State Fault Refusal :=
  let t := { s with power := { s.power with pllLocked := false, pllAcq := true } }
  whenDue s (s.power.pllLocked && s.refUsable) ((t.event Reg.pwrStat 3).countFld Reg.pwrPllStat 31 16)

/-- SAMPLING_START: the running count starts at 0 (16 R455). -/
def State.startSampling (s : State) : State :=
  let t := { s with
    time := { s.time with sampling := true, xcount := 0, changes := [] }
    trig := { s.trig with groupX := 0, groupOrbit := s.time.orbit, groupCross := s.time.cross, dtFrom := 0 } }
  t.noteDatum false

/-- SAMPLING_START. -/
def execSamplingStart (s : State) : Host.Outcome State Fault Refusal :=
  whenDue s (s.power.pllLocked && s.past .stack && !s.time.sampling) s.startSampling

/-! ### Clock stretches (01 R32 to R35) -/

/-- An island of Table 1.1 that has droop sensors. -/
def stretchable (i : Nat) : Bool := 1 ≤ i && i ≤ 46

/-- PWR_DROOP_CFG.THR as it acts, % below nominal (16 Table 16.6). -/
def State.droopThr (s : State) : Nat := min 10 (max 2 (s.fld Reg.pwrDroopCfg 3 0))

/-- STRETCH: the local supply of an island falls more than THR per cent below nominal, and its clock runs at half rate
(01 R32, 16 R446); the event is counted. -/
def execStretch (sag : Sag) (s : State) : Host.Outcome State Fault Refusal :=
  let i := sag.island
  let t := { s with power := { s.power with stretched := tabSet 0 s.power.stretched i (s.time.now + 1) } }
  whenDue s (stretchable i && 10 * s.droopThr < sag.permille && tabGet 0 s.power.stretched i == 0)
    (t.countFld Reg.topDroopStat 31 16)

/-- STRETCH_RESTORE: the supply has been in range for 256 island cycles, and full rate returns (01 R32). -/
def execStretchRestore (island : Nat) (s : State) : Host.Outcome State Fault Refusal :=
  whenDue s (tabGet 0 s.power.stretched island != 0)
    { s with power := { s.power with stretched := tabSet 0 s.power.stretched island 0 } }

/-- The history path could not take crossings of some stations: their index entries show them absent (01 R34). -/
def State.loseHistory (s : State) (sts : List Nat) (firstX count : Nat) : State :=
  let t := { s with hist := { s.hist with lost := sts.map (fun st => (st, firstX, count)) ++ s.hist.lost } }
  (sts.foldl (fun t st => t.markLoss st firstX count) t).event Reg.topDroopStat 2

/-- A station island could not take crossings: its hits, fragments and profile records become GAP records, where the records
of those crossings would stand (01 R22, R34). -/
def State.loseStation (s : State) (st firstX count : Nat) : State :=
  { s with trig := { s.trig with sagLost := (st, firstX, count) :: s.trig.sagLost } }

/-- What a stretch beyond 64 µs does, by island (01 R34): crossings `firstX` to `firstX + count - 1` overflowed. -/
def State.longSag (s : State) (island firstX count : Nat) : State :=
  let t := (s.event Reg.topDroopStat 1).setFld Reg.topDroopStat 15 8 island
  if count = 0 then t
  else if island ≤ 32 then (t.loseStation (island - 1) firstX count).loseHistory [island - 1] firstX count
  else if island = 35 then t.loseHistory (upto 0 32) firstX count
  else t

/-- LONG_SAG: an island has been stretched beyond 64 µs. -/
def execLongSag (island firstX count : Nat) (s : State) : Host.Outcome State Fault Refusal :=
  let a := tabGet 0 s.power.stretched island
  whenDue s (a != 0 && a + s.micros 64 ≤ s.time.now + 1 && firstX + count ≤ s.time.xcount + 1)
    (s.longSag island firstX count)

/-! ### Boundary scan (16 R461) -/

/-- BOUNDARY_SCAN_INSTRUCTION: TRST_N low holds the TAP in reset; EXTEST and the AC instructions take effect only while
RESET_N is low, and are executed as BYPASS otherwise; the Brix bypass stays closed during EXTEST. -/
def execBoundaryScanInstruction (ins : ScanInstr) (resetNLow trstNLow : Bool) (s : State) :
    Host.Outcome State Fault Refusal :=
  let eff : ScanInstr :=
    if trstNLow then .bypass
    else match ins with
      | .extest | .acExtest => if resetNLow then ins else .bypass
      | _ => ins
  let t := { s with scan := eff }
  .next (if eff = .extest then { t with brix := { t.brix with bypassOpen := false } } else t)

end Sys2Proof.Machine
end

