-- ==== Sys2Proof/Machine/Orbit.lean ====
section
/-!
DEFINITION. What crossing 0 and crossing N−G of an orbit do (02 R46, R49; 04 R110; 95 ORBIT_START, GAP_START).
-/

namespace Sys2Proof.Machine

open Sys2Proof

/-- Stakes whose target cannot occur any more: the orbit that holds it begins with N ≤ TARGET_X, and a RUN_LATE action then
runs at crossing 0 of the following orbit (02 R72); or that orbit is over (notes/assumptions/34.md). -/
def State.orbitStakes (s : State) : State :=
  if s.ref.free then s
  else s.stakes.foldl (fun t k =>
    let d := orbitDiff k.orbit t.time.orbit
    if k.lateAt.isSome ∨ k.held then t
    else if d = 0 ∧ t.n ≤ k.x then t.stakePast k (.nextZero t.time.now)
    else if d < 0 then t.stakePast k (.at_ t.time.now)
    else t) s

/-- What crossing 0 does: orbit values, stakes that cannot fire, the exchange orbit, the tie record, the dead-time record,
the DC test results, the temperatures and the ring. -/
def State.orbitStart (s : State) (temps : List (Nat × BitVec 16)) (cmFaults : List Nat) : State :=
  let t := s.rowRepaired.applyOrbit.orbitStakes.orbitExchange
  let t := { t with
    time := { t.time with orbitNo := t.time.orbitNo + 1, orbitStartAt := some t.time.now }
    fw := { t.fw with loadOrbit := if t.time.orbitStartAt.isSome then some t.fresh else none }
    fresh := t.fresh + 1 }
  let t := (t.formTie.deadTime).dcPost cmFaults
  let t := temps.foldl (fun t q => if q.1 < 32 then t.readTemp q.1 q.2 else t) t
  t.noteHeld.brixOrbit

/-- ORBIT_START: crossing 0. `temps` are the stations' junction temperatures, `cmFaults` the channels of which a leg left
its common-mode range in the DC test. -/
def execOrbitStart (temps : List (Nat × BitVec 16)) (cmFaults : List Nat) (s : State) :
    Host.Outcome State Fault Refusal :=
  whenDue s (s.past .fuse && s.time.cross == 0 && s.time.orbitStartAt != some s.time.now)
    (s.orbitStart temps cmFaults)

/-- Channels that are enabled. -/
def State.enabledChans (s : State) : List Nat := (upto 0 512).filter s.chEn

/-- Servo parameters that waited for the end of a restart of E3 apply (15 Table 15.1). -/
def State.freeServo (s : State) : State :=
  if (s.engine 3).restarting || !s.servo.held then s
  else { s with servo := { s.servo with held := false } }.tryTimeEnd

/-- What the first crossing of the gap does: servo parameters, the servo and an adoption; once sampling has started, staged front-end
settings (16 R456); the chains preloaded after a sampling-phase step, those of the channels that are enabled from now on (05 R154, R155);
Backsight; trims, constants and interpolated values; checkpoints; the ring. -/
def State.gapStart (s : State) : State :=
  let (t, phaseStep) := s.freeServo.applyServo
  let t := if t.time.sampling then (t.chans.map Prod.fst).foldl (fun t c => t.feApply c) t else t
  let t := if phaseStep then t.enabledChans.foldl (fun t c => t.preloadNow c) t else t
  let t := (upto 0 32).foldl (fun t j => t.stationGap j) t
  let t := (if t.time.sampling then t.applyCal else t).checkpoint.brixGap.tryCalEnd
  { t with time := { t.time with gapStartAt := some t.time.now } }

/-- GAP_START: crossing N−G, after the fast commands and stakes of the crossing (02 R49). -/
def execGapStart (s : State) : Host.Outcome State Fault Refusal :=
  whenDue s (s.past .fuse && s.atGap && s.time.gapStartAt != some s.time.now && s.dueStakes.isEmpty &&
      !(s.time.fcQueue.any fun e => e.act == s.time.now && 8 ≤ e.fc.toNat) && !s.offlineOverdue)
    s.gapStart

end Sys2Proof.Machine
end

