-- ==== Sys2Proof/Machine/Control.lean ====
section
/-!
DEFINITION. The control stream and what reaches every other chapter through it (11 R310 to R315): messages and their
parser, READ_DATA and the timeout of a read, RING_ROUTE (12 R344), ABORT (11 R332, R333), the acceptance of a STAKE
(02 R69 to R73) and the REG_WRITE action (17 R478).
-/

namespace Sys2Proof.Machine

open Sys2Proof

/-! ### Reads of host memory (11 R314, R315) -/

/-- Changes what has been read for a descriptor. -/
def State.setPrep (s : State) (r sq : Nat) (g : Prep → Prep) : State :=
  { s with ctl := { s.ctl with preps := s.ctl.preps.map fun p => if p.ring == r && p.sq == sq then g p else p } }

/-- Takes a read off the outstanding ones. -/
def State.endRead (s : State) (tag : Nat) : State :=
  { s with ctl := { s.ctl with reads := s.ctl.reads.filter fun q => q.rtag != tag } }

/-- A read is complete. -/
def State.hostReadDone (s : State) (q : HostRead) : State :=
  let t := s.endRead q.rtag
  match q.use with
  | .fetch r first n ord => t.fetchDone r first n ord q.bytes
  | .chain r sq => t.setPrep r sq fun p => { p with chain := some q.bytes }
  | .mask r sq => t.setPrep r sq fun p => { p with mask := some q.bytes }
  | .fwHeader r sq => t.setPrep r sq fun p => { p with mask := some q.bytes }
  | .fwChunk oid => t.chunkRead oid (some q.bytes)

/-- A read fails: counted in RD_FAIL, RD_FAIL_EVT, and what it means to its operation (11 R315, R323; 07 R215, R216;
15 R426, R427). -/
def State.readFailed (s : State) (q : HostRead) : State :=
  let t := (s.endRead q.rtag).event Reg.ctlStat 3
  let t := { t with ctl := { t.ctl with rdFail := satInc 0xFFFF t.ctl.rdFail } }
  match q.use with
  | .fetch r first _ _ => t.fetchFailed r first
  | .chain r sq => t.setPrep r sq fun p => { p with failed := true }
  | .mask r sq => t.setPrep r sq fun p => { p with failed := true }
  | .fwHeader r sq => t.setPrep r sq fun p => { p with failed := true }
  | .fwChunk oid => t.chunkRead oid none

/-- A READ_DATA body that keeps Table 11.4, for a read of `len` bytes (notes/assumptions/35.md). -/
def readDataOk (b : List Byte) (len : Nat) : Bool :=
  let n := b.length - 8
  let off := le b 4 4
  8 ≤ b.length && byteAt b 2 < 2 && byteAt b 3 == 0 && off % 8 == 0 && n % 8 == 0 &&
    (if byteAt b 2 = 1 then n == 0 else off + n ≤ len)

/-- Adds a piece to a read; bytes already received stay (11 R314). -/
def HostRead.piece (q : HostRead) (off : Nat) (data : List Byte) : HostRead :=
  { q with data := ((upto off data.length).zip data).foldl (fun t (i, v) =>
      if (tabGet none t i).isSome then t else tabSet none t i (some v)) q.data }

/-- All bytes of a read have been received. -/
def HostRead.full (q : HostRead) : Bool := (upto 0 q.len).all fun i => (tabGet none q.data i).isSome

/-- What a READ_DATA body does (11 R314). -/
def State.readData (s : State) (b : List Byte) : State :=
  match s.ctl.reads.find? fun q => q.rtag == le b 0 2 with
  | some q =>
    if readDataOk b q.len then
      if byteAt b 2 = 1 then s.readFailed q
      else
        let q1 := q.piece (le b 4 4) (b.drop 8)
        if q1.full then s.hostReadDone q1
        else { s with ctl := { s.ctl with reads := s.ctl.reads.map fun p => if p.rtag == q.rtag then q1 else p } }
    else s.dropMessage
  | none => s.dropMessage

/-- READ_DATA. -/
def execReadData (body : List Byte) (s : State) : Host.Outcome State Fault Refusal := .next (s.readData body)

/-- RD_TMO has passed since a read was issued (11 R315). -/
def State.readLate (s : State) (q : HostRead) : Bool :=
  q.issuedAt + 64 * s.fld1 Reg.ctlCtl 31 16 ≤ s.time.now

/-- A read is issued again with the same RTAG (11 R315). -/
def State.reissue (s : State) (q : HostRead) : State :=
  let t := s.placeRead q.rtag q.addr q.len
  let q1 := { q with issuedAt := s.time.now, reissues := q.reissues + 1 }
  { t with ctl := { t.ctl with
      rdRetry := satInc 0xFFFF t.ctl.rdRetry
      reads := t.ctl.reads.map fun p => if p.rtag == q.rtag then q1 else p } }

/-- READ_TIMEOUT: the read is issued again, or fails when its third reissue has timed out. -/
def execReadTimeout (rtag : Nat) (s : State) : Host.Outcome State Fault Refusal :=
  match s.ctl.reads.find? fun q => q.rtag == rtag with
  | some q =>
    if 3 ≤ q.reissues then whenDue s (s.readLate q) (s.readFailed q)
    else whenDue s (s.readLate q && s.canRead) (s.reissue q)
  | none => .next s

/-! ### Messages (11 R310, R311) -/

/-- Body lengths of the messages that a control stream carries; none for a type that it does not (11 Table 11.2; 09 R275;
17 R474; 12 Table 12.2). -/
def ctlLengths (ty : Nat) : Option (Nat × Nat) :=
  if ty = 0x01 then some (3, 3)
  else if ty = 0x02 then some (8, 264)
  else if ty = 0x03 then some (8, 72)
  else if ty = 0x10 then some (32, 32)
  else if memNat [0x20, 0x21, 0x30, 0x31] ty then some (16, 16)
  else if ty = 0x40 then some (4, 264)
  else if ty = 0x41 then some (24, 24)
  else if memNat [0x42, 0x43, 0x45, 0x46] ty then some (16, 16)
  else if ty = 0x44 then some (8, 264)
  else none

/-- TYPE and LEN of a message whose header R311 admits. -/
def headerOf (bs : List (Option Byte)) : Option (Nat × Nat) :=
  match bs with
  | some t :: some l0 :: some l1 :: some h :: _ =>
    let len := l0.toNat + 256 * l1.toNat
    if crc8 [t, l0, l1] != h then none
    else match ctlLengths t.toNat with
      | some (lo, hi) => if lo ≤ len ∧ len ≤ hi then some (t.toNat, len) else none
      | none => none
  | _ => none

/-- TYPE and body of a message that R311 admits. -/
def messageOf (bs : List (Option Byte)) : Option (Nat × List Byte) :=
  match headerOf bs with
  | some (ty, len) =>
    let m := bs.take (len + 6)
    let v := m.filterMap id
    if v.length = len + 6 ∧ (crc16 (v.take (len + 4))).toNat = le v (len + 4) 2 then some (ty, bytesAt v 4 len) else none
  | none => none

/-- A message that R311 does not admit is dropped; a spool message marked invalid counts in MSG_BAD as well
(10 Table 10.3). -/
def State.dropFailed (s : State) (bs : List (Option Byte)) : State :=
  match headerOf bs with
  | some (ty, len) =>
    let t := s.dropMessage
    if (ty = 0x30 ∨ ty = 0x31) ∧ (bs.take (len + 6)).any Option.isNone then t.countFld Reg.splStat 31 16 else t
  | none => s.dropMessage

/-- What a message of a type other than the ring's does. -/
def State.ctlMessage (s : State) (ty : Nat) (b : List Byte) : State :=
  match ty with
  | 0x01 => s.doorbell b
  | 0x02 => s.readData b
  | 0x03 => s.regAccess b
  | 0x10 => s.timeReport b
  | 0x20 => s.laneTrainMsg (byteAt b 1) b
  | 0x21 => s.laneDownMsg b
  | 0x30 => s.splAck b
  | 0x31 => s.splNak b
  | _ => s

/-- The inner message of a RING_ROUTE for this hub: a repeated RSEQ is discarded and counted, an inner ring message is
discarded (12 R344; notes/assumptions/36.md). -/
def State.routeInner (s : State) (b : List Byte) : State :=
  let rseq := le b 2 2
  let x := s.brix
  if memNat x.rseqs rseq then { s with brix := { x with rseqDup := satInc 0xFFFF x.rseqDup } }
  else
    let t := { s with brix := { x with rseqs := (rseq :: x.rseqs).take 64 } }
    let inner := (b.drop 4).map some
    match messageOf inner with
    | some (ty, body) => if body.length + 6 = inner.length then t.ctlMessage ty body else t.dropMessage
    | none => t.dropFailed inner

/-- DEST of a RING_ROUTE is this hub's position, and its position is set (12 R344; 16 R457). -/
def State.routeHere (s : State) (b : List Byte) : Bool := 2 ≤ s.ringN && byteAt b 0 % 8 == s.position

/-- A RING_ROUTE: a head places it in its stream unchanged, any hub in the ring passes on what is not for it, and the
named hub handles the inner message (12 R344, 16 R457). -/
def State.ringRoute (s : State) (b : List Byte) : State :=
  let here := s.routeHere b
  let t := if s.isHead then s.ringSend s.streamOut 0x40 b
    else if s.brix.bypassOpen && !here then s.emit (.brixMessage none 0x40 b)
    else s
  if here then t.routeInner b else t

/-- RING_ROUTE. -/
def execRingRoute (body : List Byte) (s : State) : Host.Outcome State Fault Refusal := .next (s.ringRoute body)

/-- What a message on the downlink does; a ring message other than RING_ROUTE has no meaning there, and RING_ROUTE has
one for a head only (12 Table 12.2). -/
def State.downMessage (s : State) (ty : Nat) (b : List Byte) : State :=
  if ty = 0x40 then (if s.isHead then s.ringRoute b else s) else s.ctlMessage ty b

/-- CONTROL_MESSAGE_DROP: the bytes of a message, one marked invalid being `none`: one that R311 does not admit is
discarded whole and leaves no state behind. -/
def execControlMessageDrop (raw : List (Option Byte)) (s : State) : Host.Outcome State Fault Refusal :=
  .next (match messageOf raw with
    | some (ty, b) => s.downMessage ty b
    | none => s.dropFailed raw)

/-- Takes frames off the control stream. -/
def State.dropFrames (s : State) (n : Nat) : State := { s with ctl := { s.ctl with frames := s.ctl.frames.drop n } }

/-- Parses the frames received so far: a message begins at character 3 of a frame, and after a discard the next frame is
a possible start (11 R310, R311). -/
def State.parseCtl : Nat → State → State
  | 0, s => s
  | fuel + 1, s =>
    match s.ctl.frames with
    | [] => s
    | f :: _ =>
      if f.head? = some (some 0) then State.parseCtl fuel (s.dropFrames 1)
      else match headerOf f with
        | none => State.parseCtl fuel (s.dropMessage.dropFrames 1)
        | some (_, len) =>
          let n := ceilDiv (len + 6) 9
          if s.ctl.frames.length < n then s
          else
            let bs := (s.ctl.frames.take n).flatten
            match messageOf bs with
            | some (ty, b) => State.parseCtl fuel ((s.dropFrames n).downMessage ty b)
            | none => State.parseCtl fuel ((s.dropFailed bs).dropFrames 1)

/-- Nine bytes of the control stream arrive (09 R270). -/
def State.ctlFrame (s : State) (f : List (Option Byte)) : State :=
  let t := { s with ctl := { s.ctl with frames := s.ctl.frames ++ [f] } }
  t.parseCtl (t.ctl.frames.length + 1)

/-! ### ABORT (11 R332, R333) -/

/-- Descriptor `sq` of a ring is submitted and not yet accepted: from FETCH to TAIL, being fetched, or fetched. -/
def State.waitingDesc (s : State) (r sq : Nat) : Bool :=
  let g := s.ring r
  sub16 sq g.fetch < sub16 g.tail g.fetch || g.fetched.any (fun f => f.sq == sq) || s.inFetch r sq

/-- A descriptor that the hub has still to fetch, or is fetching, and whose opcode it does not know yet. -/
def State.unfetched (s : State) (r sq : Nat) : Bool :=
  let g := s.ring r
  s.inFetch r sq || (s.ringState r == 1 && sub16 sq g.fetch < sub16 g.tail g.fetch && !g.fetched.any fun f => f.sq == sq)

/-- The opcode of a descriptor among the last fetched ones. -/
def State.opcodeOf (s : State) (r sq : Nat) : Option Nat := ((s.ring r).recent.find? fun p => p.1 == sq).map Prod.snd

/-- Marks an accepted operation as committed: its outcome is decided, and it stops at its next stopping point (11 R330,
R333). -/
def State.settle (s : State) (r sq : Nat) : State :=
  let g := s.ring r
  let t := s.setRing r { g with accepted := g.accepted.map fun p => if p.1 == sq then (sq, true) else p }
  { t with ctl := { t.ctl with stopping := (r, sq) :: t.ctl.stopping } }

/-- A board operation that waits is taken out; the release of a RING_RELEASE that no other submission waits for goes with it
(11 R333). -/
def State.dropWait (s : State) (w : BoardWait) : State :=
  let rest := s.brix.waits.filter fun q => !(q.ring == w.ring && q.sq == w.sq && q.remote == w.remote)
  let b := { s.brix with waits := rest }
  let kept := b.releases.filter fun q => q.bseq != w.bseq
  if rest.any (fun q => q.bseq == w.bseq) || kept.length == b.releases.length then { s with brix := b }
  else
    let t := { s with brix := { b with releases := kept } }
    (b.releases.filter fun q => q.bseq == w.bseq).foldl (fun t q => t.mirrorChange 7 q.bytes) t

/-- A march that a descriptor asked for. -/
def March.isOp (m : March) (r sq : Nat) : Bool :=
  match m.op with
  | some (r', q, _) => r' == r && q == sq
  | none => false

/-- An operation that waits in a queue of its chapter. -/
def State.abortQueued (s : State) (r sq : Nat) (stop : State → Word → Bool → State) : State :=
  match s.ctl.aborts.find? fun a => a.ring == r && a.sq == sq with
  | some a => stop { s with ctl := { s.ctl with aborts := s.ctl.aborts.filter (· != a) } } a.tag false
  | none =>
  match s.mem.marchQueue.find? fun m => m.isOp r sq with
  | some m =>
    let tag := match m.op with | some (_, _, t) => t | none => 0
    stop { s with mem := { s.mem with marchQueue := s.mem.marchQueue.filter fun q => !q.isOp r sq } } tag false
  | none =>
  match s.mem.repairs.find? fun k => k.ring == r && k.sq == sq with
  | some k => stop { s with mem := { s.mem with repairs := s.mem.repairs.filter fun q =>
      !(q.ring == r && q.sq == sq) } } k.tag false
  | none =>
  match s.survey.reads.find? fun k => k.ring == r && k.sq == sq with
  | some k =>
    let t := stop { s with survey := { s.survey with reads := s.survey.reads.filter fun q =>
      !(q.ring == r && q.sq == sq) } } k.tag k.resumed
    -- a read under conversion gives the converter up (13 R387; notes/assumptions/37.md)
    if s.readingNow && (s.survey.reads.head?.any fun q => q.ring == r && q.sq == sq) then t.surveyNext false else t
  | none =>
  match s.brix.waits.find? fun k => k.ring == r && k.sq == sq && !k.remote with
  | some k => stop (s.dropWait k) k.tag k.resumed
  | none =>
  match s.fw.chunkOps.find? fun k => k.ring == r && k.sq == sq with
  | some k =>
    let rest := s.fw.chunkOps.filter fun q => q.oid != k.oid
    let reading := k.toRead || s.ctl.reads.any fun q => q.use == .fwChunk k.oid
    let next := if reading then (rest.find? fun d => d.slot == k.slot && d.offset == k.offset).map (·.oid) else none
    let mark (d : ChunkOp) : ChunkOp := if next.any (· == d.oid) then { d with toRead := true } else d
    let t : State := { s with
      fw := { s.fw with chunkOps := rest.map mark }
      ctl := { s.ctl with reads := if next.isSome then s.ctl.reads.filter fun q => !(q.use == ReadUse.fwChunk k.oid)
        else s.ctl.reads } }
    (stop t k.tag k.resumed).readWaiting
  | none => s

/-- The outcome of an accepted operation that has not committed becomes ABORTED. A stake leaves the table at once; a
recall and a running march stop at their next unit and line; any other operation stops at once
(notes/assumptions/37.md). -/
def State.abortTarget (s : State) (r sq : Nat) : State :=
  let stop (t : State) (tag : Word) (resumed : Bool) : State := t.commit r sq Status.aborted tag resumed [] [] none
  match s.stakes.find? fun k => k.ring == r && k.sq == sq with
  | some k => s.endStake k Status.aborted 0 0
  | none =>
  match s.hist.recalls.find? fun k => k.ring == r && k.sq == sq with
  | some k => (s.setRecall { k with aborted := true }).settle r sq
  | none =>
  match s.mem.march with
  | some m =>
    if m.isOp r sq then { s with mem := { s.mem with march := some { m with aborted := true } } }.settle r sq
    else s.abortQueued r sq stop
  | none => s.abortQueued r sq stop

/-- A stake fires in this crossing: its commit is taken before an ABORT's (11 R333). -/
def State.firesNow (s : State) (r sq : Nat) : Bool := s.dueStakes.any fun k => k.ring == r && k.sq == sq

/-- What an accepted ABORT does. With a target that is not fetched yet it waits for the fetch: only then the hub knows whether the
target is an ABORT, for which the outcome is UNSUPPORTED (11 R332; notes/assumptions/87.md). -/
def State.abort (s : State) (r : Nat) (f : Fetched) : State :=
  let tr := f.body 0 1
  let tq := f.body 2 2
  let res := abortResult tr tq
  let fin (t : State) (st : Nat) (after : Option (Nat × Nat)) : State := t.commit r f.sq st f.tag false res [] after
  if 32 ≤ tr ∨ !f.zero 1 1 ∨ !f.zero 4 44 then s.finish r f Status.badDescriptor
  else if s.opcodeOf tr tq = some 0x01 then s.finish r f Status.unsupported
  else if s.waitingDesc tr tq then
    let g := s.ring tr
    let t := s.setRing tr { g with marked := insNat g.marked tq }
    if s.unfetched tr tq then { t with ctl := { t.ctl with aborts := t.ctl.aborts ++ [⟨r, f.sq, f.tag, tr, tq⟩] } }
    else fin t Status.ok none
  else if memPair (s.ring tr).accepted (tq, false) then
    if s.firesNow tr tq then fin s Status.alreadyDone (some (tr, tq))
    else fin (s.abortTarget tr tq) Status.ok (some (tr, tq))
  else if memPair (s.ring tr).accepted (tq, true) then fin s Status.alreadyDone (some (tr, tq))
  else if (s.opcodeOf tr tq).isSome then fin s Status.alreadyDone none
  else fin s Status.notFound none
where
  /-- Membership of an accepted descriptor with its commit state. -/
  memPair (l : List (Nat × Bool)) (p : Nat × Bool) : Bool := l.any fun q => q == p

/-- ABORT. -/
def execAbort (ring : Nat) (s : State) : Host.Outcome State Fault Refusal :=
  acceptDesc ring (· == 0x01) (fun f t => t.abort ring f) s

/-! ### STAKE (02 R69 to R73) -/

/-- Registers whose table gives a writable field that the stake path has no copy of: TOP_PATH_STAT and the unlock arm
(17 Table 17.2). -/
def stakeWritable (a : Nat) : Bool :=
  match regRow a with
  | some r => (r.rw ||| r.w1c ||| r.w1s ||| r.wo) != 0 && a != Reg.topPathStat && a != Reg.topUnlock
  | none => false

/-- The pairs of a REG_WRITE stake's arguments (17 R478). -/
def writePairs (args : List Byte) : List (Nat × Nat) :=
  (upto 0 (byteAt args 0)).map fun i => (le args (4 + 8 * i) 4, le args (8 + 8 * i) 4)

/-- A pair that R478 admits, `prev` being the preceding pair's address. -/
def State.pairOk (s : State) (prev : Option Nat) (a : Nat) : Bool :=
  a % 4 == 0 && a < 0x100000 && stakeWritable a && !s.pageLocked (a / 0x1000) &&
    match regRow a with
    | some r => r.kind != .hiRW || prev == some (a - 4)
    | none => false

/-- Every pair of a list is admitted. -/
def State.pairsOk (s : State) (prev : Option Nat) : List (Nat × Nat) → Bool
  | [] => true
  | (a, _) :: t => s.pairOk prev a && s.pairsOk (some a) t

/-- Arguments of a REG_WRITE stake that R478 admits. -/
def State.writeArgsOk (s : State) (args : List Byte) : Bool :=
  let n := byteAt args 0
  1 ≤ n && n ≤ 4 && allZero (bytesAt args 1 3) && allZero (args.drop (4 + 8 * n)) && s.pairsOk none (writePairs args)

/-- Arguments of an INJECT stake that 03 R95 admits. -/
def injectArgsOk (args : List Byte) : Bool :=
  let m := byteAt args 0
  1 ≤ m && m < 16 && allZero (bytesAt args 1 3) && allZero (bytesAt args 24 12) &&
    (upto 0 4).all fun i => !Nat.testBit m i || le args (12 + 2 * i) 2 / 2 ^ 12 % 8 == 0

/-- Arguments of a ROLE_SWAP stake that 12 R362 admits. -/
def State.swapArgsOk (s : State) (args : List Byte) (x : Nat) : Bool :=
  byteAt args 0 < 2 && allZero (bytesAt args 1 3) && le args 4 4 != 0 && allZero (args.drop 8) && x == s.n - s.g

/-- What the action's own checks find wrong before the target is looked at (02 R76, 17 R478, 03 R95, 06 R191, 12 R362);
bytes that an action gives no meaning are reserved (notes/assumptions/38.md). -/
def State.stakeArgs (s : State) (k : Stake) : Option Nat :=
  let bad (ok : Bool) : Option Nat := if ok then none else some Status.badDescriptor
  match k.action with
  | 1 => bad (byteAt k.args 0 < 16 && allZero (k.args.drop 1) && frameOk (s.frameBuffer (byteAt k.args 0)))
  | 2 => bad (s.writeArgsOk k.args)
  | 3 => bad (injectArgsOk k.args)
  | 4 => bad (allZero (k.args.drop 16))
  | 5 => bad (allZero (k.args.drop 8))
  | 6 => bad (byteAt k.args 0 < 64 && allZero (k.args.drop 1))
  | 7 => none
  | 8 => if s.isHead then bad (s.swapArgsOk k.args k.x) else some Status.unsupported
  | _ => some Status.unsupported

/-- The orbit that holds the target is the present one and ends before it (02 R72). -/
def State.cannotOccur (s : State) (k : Stake) : Bool := k.orbit == s.time.orbit && s.n ≤ k.x

/-- When a stake found past at acceptance runs (02 R71, R72). -/
def State.lateRun (s : State) (k : Stake) : LateRun :=
  if s.cannotOccur k then .nextZero s.time.now else .at_ (s.time.now + 1)

/-- A stake that passed its checks enters the table, and its action is prepared (15 R431, 12 R363). -/
def State.enterStake (s : State) (k : Stake) (past : Bool) : State :=
  let k := if past then { k with lateAt := some (s.lateRun k) } else k
  let t := { s with stakes := s.stakes ++ [k] }
  if k.action = 7 then { t with fw := { t.fw with act := some ⟨k.sid, byteAt k.args 0, false⟩ } }
  else if k.action = 8 then t.armSwap k.sid (byteAt k.args 0) (le k.args 4 4) (datumWord k.orbit k.x)
  else t

/-- The stake that a descriptor asks for. -/
def State.stakeOf (s : State) (r : Nat) (f : Fetched) : Stake :=
  { sid := s.ctl.nextOid, ring := r, sq := f.sq, tag := f.tag
    orbit := f.body 0 8, x := f.body 8 2, n := s.n, runLate := f.body 10 1 == 1, action := f.body 11 1
    args := bytesAt f.bytes 28 36, lateAt := none, frame := none, held := false, resumed := false }

/-- The checks of R69, of the action, of R70, R72 and R73: the status that ends the stake, if any. Which one wins when several
fail is not stated; NO_SLOT is tested last: DESIGN CHOICE (notes/assumptions/93.md). -/
def State.stakeFails (s : State) (k : Stake) (policy : Nat) : Option Nat :=
  let d := s.distance k.orbit k.x
  let past := d < 8 || (k.action != 7 && s.cannotOccur k)
  if 1 < policy ∨ (policy = 1 ∧ (k.action = 7 ∨ k.action = 8)) ∨ 8191 < k.x ∨ 2 ^ 44 ≤ k.orbit then
    some Status.badDescriptor
  else match s.stakeArgs k with
    | some st => some st
    | none =>
      if past && !k.runLate then some Status.late
      else if decide (2 ^ 40 < d) then some Status.tooFar
      else match if k.action = 7 then s.activateFails k else none with
        | some st => some st
        | none => if 64 ≤ s.stakes.length then some Status.noSlot else none

/-- What an accepted STAKE does. -/
def State.stake (s : State) (r : Nat) (f : Fetched) : State :=
  let k := s.stakeOf r f
  match s.stakeFails k (f.body 10 1) with
  | some st =>
    let t := if st = Status.late then s.countFld Reg.timeStakeStat 31 16 else s
    t.finish r f st
  | none => s.enterStake k (s.distance k.orbit k.x < 8 || s.cannotOccur k)

/-- STAKE; it waits while the engine that keeps the stake table restarts (01 R28). -/
def execStake (ring : Nat) (s : State) : Host.Outcome State Fault Refusal :=
  match s.acceptNext ring with
  | some f => whenDue s (f.opcode == 0x10 && s.engineUp 3) (s.acceptRun ring f fun f t => t.stake ring f)
  | none => .next s

/-- Writes pairs in order on the stake path. -/
def State.writeStakePairs (s : State) : List (Nat × Nat) → State
  | [] => s
  | (a, v) :: t => (s.writeReg .stake a (BitVec.ofNat 32 v)).writeStakePairs t

/-- REG_WRITE at its target: the stake path, its selections 0 and its shadow empty, writes the pairs in order, or none
when a named page is locked (17 R478, Table 17.2). -/
def State.regWrite (s : State) (k : Stake) : State :=
  let ps := writePairs k.args
  if ps.any fun p => s.pageLocked (p.1 / 0x1000) then s.endStake k Status.badDescriptor 0 0
  else
    let t := { s with stakePath := PathState.init }.writeStakePairs ps
    { t with stakePath := PathState.init }.ranStake k 0

/-- REG_WRITE. -/
def execRegWrite (s : State) : Host.Outcome State Fault Refusal :=
  match s.dueStake 0x02 with
  | some k => .next (s.regWrite k)
  | none => .next s

end Sys2Proof.Machine
end

