-- ==== Sys2Proof/Machine/Downlink.lean ====
section
/-!
DEFINITION. The receive lanes (09 R264 to R272, R284; 12 R339 to R349): downlink and Brix frames, the fast commands and
the control bytes they carry, the streams and the ring messages, and the states of a receive lane.
-/

namespace Sys2Proof.Machine

open Sys2Proof

/-! ### Receive lanes (09 R264, R284) -/

/-- A frame has arrived on a lane that is not LOS: character 0, code errors, the master's count, in an orbit of `n` crossings, and
the last K28.1 (09 R264, R284; 02 R47, 12 R340). -/
def RxLaneState.frame (r : RxLaneState) (comma : Comma) (errs n now frac : Nat) : RxLaneState :=
  let k1 := comma == .k281
  let live := r.stat == .aligned || r.stat == .up
  { r with
    goodRun := if comma == .bad then 0 else r.goodRun + 1
    badRun := if comma == .bad then r.badRun + 1 else 0
    errs := (errs :: r.errs).take 64
    codeErr := min 0xFFFF (r.codeErr + errs)
    masterX := if !live then none else if k1 then some 0 else r.masterX.map fun x => if x + 1 = n then 0 else x + 1
    k281 := if k1 && live then some (now, frac) else r.k281 }

/-- Three consecutive frames whose character 0 is not as it must be (09 Table 9.10). -/
def RxLaneState.commaLoss (r : RxLaneState) : Bool := 3 ≤ r.badRun

/-- 16 code errors within 64 consecutive frames (09 Table 9.10). -/
def RxLaneState.errorLoss (r : RxLaneState) : Bool := 16 ≤ r.errs.foldl (· + ·) 0

/-! ### The head's own stream (12 R337 to R340, R359) -/

/-- RXDLY of a downlink, 1/16 ps (09 R282). -/
def State.dlDly (s : State) (dl : Downlink) : Int :=
  (s.reg (match dl with | .a => Reg.lnkDlaRxdly | .b => Reg.lnkDlbRxdly)).toNat

/-- A stamp moved by a time in 1/16 ps. -/
def State.stampLess (s : State) (stamp : Nat) (t16 : Int) : Nat :=
  if s.t16 ≤ 0 then stamp else toTwos 64 ((stamp : Int) - t16 * 2 ^ 24 / s.t16)

/-- The frame of the reference downlink goes on in the head's own stream, 4 crossings after it came (12 R337, R340). -/
def State.headForward (s : State) (dl : Downlink) (f : DlFrame) (pass : Bool) : State :=
  if s.headOpen then
    s.headFrame (s.rx (dlLane dl)).masterX f.fc f.fchk pass fun _ =>
      (toTwos 64 ((s.stampLess (s.stamp f.frac.toNat) (s.dlDly dl) : Int) + 4 * 2 ^ 24))
  else s

/-! ### DOWNLINK_FRAME -/

/-- What a frame of a downlink that is UP does. -/
def State.dlUpFrame (s : State) (dl : Downlink) (f : DlFrame) : State :=
  let r := s.rx (dlLane dl)
  let pass := fcPasses f.comma f.fc f.fchk f.fcErr
  let source := s.fcDl == some dl
  let s := if pass && f.fc.toNat % 8 != 0 then
      s.setRx (dlLane dl) { r with extRsvd := satInc 0xFF r.extRsvd }
    else s
  let s := if source && f.comma == .k281 then (s.stampK281 f.frac.toNat).k281Seen 0 f.frac.toNat else s
  let s := if source then
      (if pass then s.fcTake r.masterX f.fc f.fchk else s.fcError.evidence 0).headForward dl f pass
    else s
  if s.ctlDl == some dl then
    s.ctlFrame (if f.comma == .bad then List.replicate 9 none else (f.ctl ++ List.replicate 9 none).take 9)
  else s

/-- A downlink frame arrives. One that completes three with a bad character 0 is still handled before the downlink is
declared down; one that brings the sixteenth code error acts on nothing (notes/assumptions/39.md). -/
def State.dlFrame (s : State) (dl : Downlink) (f : DlFrame) : State :=
  let l := dlLane dl
  let r := s.rx l
  if r.stat = .los then s
  else
    let r1 := r.frame f.comma f.codeErrs (s.frameOrbit (r.masterX.getD 0)) s.time.now f.frac.toNat
    let t := s.setRx l r1
    if r.stat = .acquire then t
    else if r1.errorLoss then t.rxDown l .acquire
    else
      let u := if r.stat = .up then t.dlUpFrame dl f else t
      if r1.commaLoss then u.rxDown l .acquire else u

/-- The running disparity of a receive lane after symbols (09 R264). -/
def State.rxSymbols (s : State) (l : RxLane) (syms : List (BitVec 10)) : State :=
  let r := s.rx l
  s.setRx l { r with rd := disparityOf r.rd syms }

/-- DOWNLINK_FRAME: the twelve symbols of a crossing. -/
def execDownlinkFrame (dl : Downlink) (f : LineFrame) (s : State) : Host.Outcome State Fault Refusal :=
  let l := dlLane dl
  .next ((s.rxSymbols l (symbolsOf 12 f.syms)).dlFrame dl (dlDecode (s.rx l).rd f.syms f.frac))

/-! ### Ring messages (12 R341, R342, R346, R357 to R363) -/

/-- Body lengths of the messages that a Brix lane carries (12 Table 12.2). -/
def ringType (ty : Nat) : Bool := 0x40 ≤ ty && ty < 0x47

/-- The frames of a port are the other head's: what a head sent itself and comes round is not from its partner
(12 Tables 12.1, 12.2). -/
def State.fromPartner (s : State) (pt : Port) : Bool := (s.rx (portRx pt)).rhdr.getLsbD 0 == (s.position == 0)

/-- What a message that arrived on a port does here; what goes on to other hubs has gone on already. A hub whose bypass is
closed reads RING_MAP and HUB_STATUS and takes what is routed to it (12 R341, R351, Table 12.2). -/
def State.ringMessage (s : State) (pt : Port) (ty : Nat) (b : List Byte) : State :=
  let head := s.isHead && s.brix.bypassOpen && s.fromPartner pt
  match ty with
  | 0x40 => if s.routeHere b then s.routeInner b else s
  | 0x41 => s.hopReport pt b
  | 0x42 => s.hubStatus b
  | 0x43 => s.takeMap b
  | 0x44 => if head then s.mirror b else s
  | 0x45 => if head then s.closure b else s
  | _ =>
    if head then
      (if byteAt b 0 = 1 then s.roleArm b else if byteAt b 0 = 2 then s.decideMsg b else s)
    else s

/-- A packet of the slots has closed: its message acts when R311 admits it, and is discarded otherwise (12 R341). -/
def State.ringPacket (s : State) (pt : Port) (passed : Bool) (bytes : List Byte) : State :=
  match messageOf (bytes.map some) with
  | some (ty, b) =>
    if ringType ty && b.length + 6 == bytes.length then s.ringMessage pt ty b else s.dropPacket passed bytes
  | none => s.dropPacket passed bytes

/-- The first bytes of a packet name this hub: a HOP_REPORT, or a RING_ROUTE with its position (12 Table 12.2, R344). -/
def State.packetHere (s : State) (l : List Byte) : Bool :=
  match headerOf (l.map some) with
  | some (0x41, _) => true
  | some (0x40, _) => s.routeHere (l.drop 4)
  | _ => false

/-- A byte of a packet. A forwarding hub knows with the fifth one whether the packet is for it, and passes every other packet
on (12 R341). -/
def State.slotByte (s : State) (pt : Port) (v : Byte) (l : List Byte) : State :=
  let r := s.rx (portRx pt)
  let l1 := (l ++ [v]).take 512
  let t := s.setRx (portRx pt) { r with slotBuf := some l1 }
  match r.slotPass with
  | some true => t.passChars pt [.d v]
  | some false => t
  | none =>
    if l1.length < 5 then t
    else
      let pass := s.forwards && !s.packetHere l1
      let t := t.setRx (portRx pt) { t.rx (portRx pt) with slotPass := some pass }
      if pass then t.passChars pt (k27_7 :: dataChars l1) else t

/-- A packet closes. One of less than five bytes names nobody, and goes on whole. -/
def State.slotClose (s : State) (pt : Port) (l : List Byte) : State :=
  let r := s.rx (portRx pt)
  let t := s.setRx (portRx pt) { r with slotBuf := none, slotPass := none }
  let t := match r.slotPass with
    | some true => t.passChars pt [k29_7]
    | some false => t
    | none => if t.forwards then t.passChars pt (framedChars k27_7 l) else t
  t.ringPacket pt (s.passesOn r) l

/-- One character of the slots. A packet that is aborted, carries a code error, or does not close before the next one opens
ends there, onward with K30.7 (12 R341). -/
def State.slot1 (s : State) (pt : Port) (c : SlotChar) : State :=
  match c, (s.rx (portRx pt)).slotBuf with
  | .open_, _ =>
    let t := s.cutSlot pt
    t.setRx (portRx pt) { t.rx (portRx pt) with slotBuf := some [] }
  | .data v, some l => s.slotByte pt v l
  | .data _, none => s
  | .close, some l => s.slotClose pt l
  | .close, none => s
  | .abort, _ => s.cutSlot pt
  | .bad, _ => s.cutSlot pt

/-! ### Fast commands and time through the ring (12 R343 to R349) -/

/-- The stream that arrives on a port: true for head B's. -/
def State.streamOn (s : State) (pt : Port) : Option Bool :=
  if s.streamIn false == some pt then some false
  else if s.streamIn true == some pt then some true
  else none

/-- The frame of `x` on stream `b` at a hub that takes its fast commands from the ring, `c` being its characters 1 and 2 when
it may be acted on: the preferred stream's frame acts, and the other's when the preferred one may not or is not up
(12 R343). -/
def State.ringFc (s : State) (b : Bool) (x : Nat) (c : Option (Byte × Byte)) : State :=
  let oUp := s.streamUp (!b)
  let oC := match s.streamIn (!b) with
    | some pt => (s.rx (portRx pt)).fcOf x
    | none => none
  let differ := match c, oC with
    | some c, some (some o) => c.1 != o.1
    | _, _ => false
  let t := if differ then
      { s with brix := { s.brix with fcDiff := satInc 0xFFFF s.brix.fcDiff } }.event Reg.brxStat 20
    else s
  if b == s.brix.preferB then
    match c, oUp, oC with
    | some c, _, _ => t.ringTake x c
    | none, true, some (some o) => t.ringTake x o
    | _, _, _ => t
  else match c with
    | some c => if !oUp || oC == some none then t.ringTake x c else t
    | none => t

/-- The point, in crossings back from the present one and a fraction, that lies `path` (1/16 ps) before a fraction of the
present crossing. -/
def State.pathPoint (s : State) (frac : Nat) (path : Int) : Nat × Nat :=
  if s.t16 ≤ 0 then (0, frac)
  else
    let tot : Int := (frac : Int) - path * 2 ^ 24 / s.t16
    if 0 ≤ tot then (0, tot.toNat % 2 ^ 24)
    else
      let back := ((-tot + 2 ^ 24 - 1) / 2 ^ 24).toNat
      (back, (tot + back * 2 ^ 24).toNat)

/-- PATH of the frames that a head has fallen back on, when it can be used (12 R347, R349). -/
def State.headRefPath (s : State) : Option Int :=
  if s.headRefPort == s.mirrorPort then s.mirrorPath else s.pathOf (s.position == 0)

/-- The K28.1 of the frames that the hub takes its time from arrives over the ring: t2 − PATH takes the place of t2
(12 R347). -/
def State.ringK281 (s : State) (frac : Nat) (path : Option Int) : State :=
  match path with
  | some p =>
    let t := s.stampK281 frac
    let (back, f) := s.pathPoint frac p
    let t := { t with servo := { t.servo with k281 := t.servo.k281.map fun (st, o) => (t.stampLess st p, o) } }
    t.k281Seen back f
  | none => s

/-! ### BRIX_FRAME -/

/-- HOPS of an RHDR. -/
def hopsOf (rhdr : Byte) : Nat := rhdr.toNat / 8 % 8

/-- A forwarding hub passes characters 0 to 3 on, with character 0 of its own count, HOPS + 1, and DL_OK cleared when they
arrived bad (12 R340); the K28.1's departure is stamped (12 R346). -/
def State.forward (s : State) (pt : Port) (f : BrixFrame) (pass : Bool) : State :=
  if s.forwards then
    let out := otherPort pt
    let x := (s.rx (portRx pt)).masterX
    let rhdr : Byte := BitVec.ofNat 8 (f.rhdr.toNat % 8 + 8 * min 7 (hopsOf f.rhdr + 1)) &&& (if pass then 0xFF else 0xFB)
    let t := s.sendBrixFrame out x f.fc f.fchk rhdr
    if x = some 0 then
      t.stampT1 out (toTwos 64 ((s.atBall pt (s.stamp f.frac.toNat) : Int) + 2 * 2 ^ 24))
    else t
  else s

/-- The fast command and the time that a frame of a port brings. A head that has fallen back takes its partner's frames
only (12 R343, R347, R349). -/
def State.ringUse (s : State) (pt : Port) (f : BrixFrame) (pass : Bool) : State :=
  let r := s.rx (portRx pt)
  let ok := pass && f.rhdr.getLsbD 2
  if s.refSel = 2 then
    match s.streamOn pt, r.masterX with
    | some b, some x =>
      let t := if f.comma == .k281 && s.usingB == b then s.ringK281 f.frac.toNat (s.pathOf b) else s
      let t := if pass then t else t.fcError
      let c := if ok then some (f.fc, f.fchk) else none
      let t := t.ringFc b x c
      t.setRx (portRx pt) { t.rx (portRx pt) with fcs := ((x, c) :: r.fcs).take 64 }
    | _, _ => s
  else if s.headRef && pt == s.headRefPort then
    let t := if f.comma == .k281 then s.ringK281 f.frac.toNat s.headRefPath else s
    if ok then t.fcTake r.masterX f.fc f.fchk else if pass then t else t.fcError
  else s

/-- RHDR and HOPS of a frame, and whether it counts as one of the other head marked ACT (12 R347, R356). -/
def RxLaneState.header (r : RxLaneState) (f : BrixFrame) (act : Bool) : RxLaneState :=
  { r with
    rhdr := if f.rhdrErr then r.rhdr else f.rhdr
    hops := if f.comma == .k281 && !f.rhdrErr then (hopsOf f.rhdr :: r.hops).take 2 else r.hops
    sinceAct := if act then 0 else r.sinceAct
    actRun := if act then r.actRun + 1 else 0 }

/-- What a frame of a Brix receive lane that is UP does. -/
def State.brixUpFrame (s : State) (pt : Port) (f : BrixFrame) : State :=
  let l := portRx pt
  let r := s.rx l
  let pass := fcPasses f.comma f.fc f.fchk f.headErr
  let theirs := f.rhdr.getLsbD 0 == (s.position == 0)
  let r1 := r.header f (pass && !f.rhdrErr && f.rhdr.getLsbD 1 && theirs)
  let s := s.setRx l r1
  -- at a head, its own frames that come round count as no reference
  let s := if s.isHead && r1.rhdr.getLsbD 0 != r.rhdr.getLsbD 0 then s.refUpdate else s
  let s := if f.comma == .k281 then s.updatePaths else s
  let s := (s.ringUse pt f pass).forward pt f pass
  f.slots.foldl (fun t c => t.slot1 pt c) s

/-- A Brix frame arrives (09 R284: it takes the place of the crossing frame). -/
def State.brixFrame (s : State) (pt : Port) (f : BrixFrame) : State :=
  let l := portRx pt
  let r := s.rx l
  if r.stat = .los then s
  else
    let r1 := r.frame f.comma f.codeErrs (s.frameOrbit (r.masterX.getD 0)) s.time.now f.frac.toNat
    let r1 := if r.stat = .aligned ∧ !f.rhdrErr then { r1 with rhdr := f.rhdr } else r1
    let t := s.setRx l r1
    if r.stat = .acquire then t
    else if r1.errorLoss then t.rxDown l .acquire
    else
      let u := if r.stat = .up then t.brixUpFrame pt f else t
      if r1.commaLoss then u.rxDown l .acquire else u

/-- BRIX_FRAME: the ten symbols of a crossing. -/
def execBrixFrame (port : Port) (f : LineFrame) (s : State) : Host.Outcome State Fault Refusal :=
  let l := portRx port
  .next ((s.rxSymbols l (symbolsOf 10 f.syms)).brixFrame port (brixDecode (s.rx l).rd f.syms f.frac))

/-! ### The states of a receive lane (09 R284) -/

/-- A receive lane is enabled, and start-up lets it work: the downlink receivers from the end of FUSE, the Brix receivers
with the lock of the PLL (09 Table 9.11; 16 R455, Table 16.5; 12 R351). -/
def State.rxEnabled (s : State) : RxLane → Bool
  | .dla => s.past .fuse && bit (s.reg Reg.lnkCtl) 0
  | .dlb => s.past .fuse && bit (s.reg Reg.lnkCtl) 1
  | .brixP | .brixQ => s.listening || s.brix.bypassOpen

/-- SIGNAL_DETECT: signal is present on a lane in LOS; an enabled one goes to ACQUIRE. -/
def execSignalDetect (lane : RxLane) (s : State) : Host.Outcome State Fault Refusal :=
  let r := s.rx lane
  .next (if r.stat = .los ∧ s.rxEnabled lane then
      s.setRx lane { r with stat := .acquire, goodRun := 0, badRun := 0, errs := [], masterX := none }
    else s)

/-- DOWNLINK_ALIGNED: character 0 has been found in place in 64 consecutive frames. -/
def execDownlinkAligned (lane : RxLane) (s : State) : Host.Outcome State Fault Refusal :=
  let r := s.rx lane
  whenDue s (r.stat == .acquire && 64 ≤ r.goodRun)
    (s.setRx lane { r with stat := .aligned, masterX := none, k281 := none, errs := [], badRun := 0 })

/-- A Brix port gives crossing 0: its stream is in use, or a head that has fallen back takes its partner's frames there
(12 R343, R348, R349). -/
def State.ringGivesZero (s : State) (pt : Port) : Bool :=
  if s.refSel = 2 then s.streamIn s.usingB == some pt else s.headRef && s.headRefPort == pt

/-- A lane is the one that gives crossing 0: the source of fast commands, the stream in use, or the partner's frames at a
head that has fallen back (09 R270; 12 R343, R348, R349). -/
def State.givesZero (s : State) (l : RxLane) : Bool :=
  match l with
  | .dla => s.fcDl == some .a
  | .dlb => s.fcDl == some .b
  | .brixP => s.ringGivesZero .p
  | .brixQ => s.ringGivesZero .q

/-- The crossing 0 that a lane gives, at its own downlink ball: its last K28.1, moved back by PATH on the ring; none while
PATH cannot be used (12 R347, R349). -/
def State.zeroPoint (s : State) (l : RxLane) (now frac : Nat) : Option (Nat × Nat) :=
  let path : Option Int := match l with
    | .dla | .dlb => some 0
    | .brixP | .brixQ => if s.refSel = 2 then s.pathOf s.usingB else s.headRefPath
  path.map fun p =>
    let (back, f) := s.pathPoint frac p
    (s.time.now - now + back, f)

/-- A receive lane comes UP: crossing numbering from the master begins, and with the reference the Datum is taken from it
or checked against it (09 R284; 02 R47, R62, R65, R66). On the ring the check waits for a K28.1 whose PATH can be used
(12 R347). -/
def State.rxComesUp (s : State) (l : RxLane) (now frac : Nat) : State :=
  let t := s.setRx l { s.rx l with stat := .up, goodRun := 0, badRun := 0 }
  let gives := t.givesZero l
  let t := if gives then { t with fseq := none } else t
  let t := t.refUpdate
  let t := match if gives then t.zeroPoint l now frac else none with
    | some (back, f) => t.refSeen back f
    | none => t
  t.tryTimeEnd

/-- DOWNLINK_UP: a K28.1 has been received while ALIGNED. -/
def execDownlinkUp (lane : RxLane) (s : State) : Host.Outcome State Fault Refusal :=
  let r := s.rx lane
  match r.k281 with
  | some (now, frac) => whenDue s (r.stat == .aligned) (s.rxComesUp lane now frac)
  | none => .next s

/-- RECEIVE_LANE_DOWN: signal detect or clock recovery is lost; with a signal present the lane returns to ACQUIRE, without
one to LOS (09 R284). -/
def execReceiveLaneDown (lane : LaneLoss) (s : State) : Host.Outcome State Fault Refusal :=
  .next (if (s.rx lane.lane).stat = .los then s else s.rxDown lane.lane (if lane.signal then .acquire else .los))

/-! ### The frequency of the reference (09 R271, R272) -/

/-- What the hub can take its frequency from: a lane, or REFCLK (`none`). A source found unusable is measured on, so that it
can be found usable again (02 R62, R67; 12 R348, R349). -/
def State.freqRef (s : State) : Option RxLane → Bool
  | none => s.refSel == 3
  | some .dla => s.ref.dlaBad || s.fcDl == some .a || (s.refSel < 2 && s.selDl == .a)
  | some .dlb => s.ref.dlbBad || s.fcDl == some .b || (s.refSel < 2 && s.selDl == .b)
  | some .brixP => s.ref.brixPBad || s.refSel == 2 || s.headRef
  | some .brixQ => s.ref.brixQBad || s.refSel == 2 || s.headRef

/-- A measured frequency that R272 finds unusable; `diffPpb` is REFCLK's difference from an up downlink's clock over one
orbit. -/
def State.freqBad (s : State) (lane : Option RxLane) (kHz ppmPerS diffPpb : Nat) : Bool :=
  kHz < 34900 || 45100 < kHz || 20 < ppmPerS ||
    (lane.isNone && s.framing.isSome && 500 < diffPpb)

/-- Notes whether a reference passes the frequency check. -/
def State.setFreqBad (s : State) (lane : Option RxLane) (bad : Bool) : State :=
  { s with ref := match lane with
    | none => { s.ref with refclkBad := bad }
    | some .dla => { s.ref with dlaBad := bad }
    | some .dlb => { s.ref with dlbBad := bad }
    | some .brixP => { s.ref with brixPBad := bad }
    | some .brixQ => { s.ref with brixQBad := bad } }

/-- REF_FREQ_CHECK: the measurement of a reference. An unusable one is declared down; one that passes again returns and is
checked like any other (02 R66). -/
def State.freqCheck (s : State) (lane : Option RxLane) (kHz ppmPerS diffPpb : Nat) : State :=
  if !s.freqRef lane then s
  else if s.freqBad lane kHz ppmPerS diffPpb then
    let t := (s.setFreqBad lane true).event Reg.lnkStat 9
    match lane with
    | some l => if (t.rx l).stat = .los then t.refUpdate else t.rxDown l .acquire
    | none => t.refUpdate
  else (s.setFreqBad lane false).refUpdate.tryTimeEnd

/-- REF_FREQ_CHECK. -/
def execRefFreqCheck (lane : Option RxLane) (kHz ppmPerS diffPpb : Nat) (s : State) :
    Host.Outcome State Fault Refusal := .next (s.freqCheck lane kHz ppmPerS diffPpb)

end Sys2Proof.Machine
end

