-- ==== Sys2Proof/Machine/Integrity.lean ====
section
/-!
DEFINITION. The SRAM patrol (14 R402), and what is lost with an uncorrectable word of CTRL, whose state belongs to the
operations of every chapter (14 R401).
-/

namespace Sys2Proof.Machine

open Sys2Proof

/-- The state of an operation that has not committed is lost: it completes DATA_ERROR. A recall stops as an aborted one, at its
next unit and when its share takes what it has; a march that runs gives way to the next one (14 Table 14.4). -/
def State.loseOperation (s : State) (r sq : Nat) : State :=
  let stop (t : State) (tag : Word) (resumed : Bool) : State := t.commit r sq Status.dataError tag resumed [] [] none
  match s.stakes.find? fun k => k.ring == r && k.sq == sq with
  | some k => s.endStake k Status.dataError 0 0
  | none =>
  match s.hist.recalls.find? fun k => k.ring == r && k.sq == sq with
  | some k => (s.setRecall { k with aborted := true, lost := true }).settle r sq
  | none =>
  match s.mem.march.bind fun m => if m.isOp r sq then m.op else none with
  | some (_, _, tag) =>
    let next := s.mem.marchQueue
    stop { s with mem := { s.mem with march := next.head?, marchQueue := next.drop 1 } } tag false
  | none => s.abortQueued r sq stop

/-- The operations accepted and not committed, by ring and place in it. -/
def State.openOps (s : State) : List (Nat × Nat) :=
  (upto 0 32).flatMap fun r => ((s.ring r).accepted.filter fun q => !q.2).map fun q => (r, q.1)

/-- What is lost with an uncorrectable word of CTRL (14 Table 14.4): a tie record, or an operation. The manual does not say
what a word holds: free values choose (notes/assumptions/28.md). -/
def State.ctrlLoss (s : State) : State :=
  let (k, s) := s.free
  let (i, s) := s.free
  match k % 3 with
  | 1 => { s with ties := s.ties.take (i % 64) ++ s.ties.drop (i % 64 + 1) }
  | 2 => match (s.openOps.drop i).head? with
    | some q => s.loseOperation q.1 q.2
    | none => s
  | _ => s

/-- A word that the patrol reads (14 R401, R402, R406). -/
def State.patrolRead (s : State) (b addr column : Nat) (ecc : EccResult) : State :=
  match ecc with
  | .clean => s
  | .corrected =>
    let t := s.sramCe b addr
    if largeBank b then
      let k := t.bank b
      let cols := noteColumn k.cols column addr
      let t := t.setBank b { k with cols := cols }
      if 3 ≤ columnWords cols column then t.columnWeak b column else t
    else t
  | .uncorrectable =>
    let t := s.sramUe ⟨b, addr, column⟩
    if largeBank b then t
    else if b < 68 then t.ctrlLoss
    else if (t.engine (b - 68)).running then t.restartEngine (b - 68)
    else t

/-- PATROL_READ: a word of a bank that is not in retention and not under test. -/
def execPatrolRead (bank addr column : Nat) (ecc : EccResult) (s : State) : Host.Outcome State Fault Refusal :=
  whenDue s (bit (s.reg Reg.memCtl) 3 && s.past .memtest && bank < 76 && addr < 65536 && !s.inRetention bank &&
    !s.lineUnderTest bank addr) (s.patrolRead bank addr column ecc)

end Sys2Proof.Machine
end

