-- ==== Sys2Proof/Machine/Dispatch.lean ====
section
/-!
DEFINITION. The meaning of each command: one arm for each row of spec/opcode_table.json.
-/

namespace Sys2Proof.Machine

open Sys2Proof

/-- What a command does to everything but the queue. -/
def exec (i : Instr) (s : State) : Host.Outcome State Fault Refusal :=
  match i with
  | .powerReset rails => Sys2Proof.Machine.execPowerReset rails s
  | .railsEnd => Sys2Proof.Machine.execRailsEnd s
  | .railLowEvt rail mV => Sys2Proof.Machine.execRailLowEvt rail mV s
  | .pinReset lowNs => Sys2Proof.Machine.execPinReset lowNs s
  | .softReset p v => Sys2Proof.Machine.execSoftReset p v s
  | .fuseEnd => Sys2Proof.Machine.execFuseEnd s
  | .settingsEnd a b => Sys2Proof.Machine.execSettingsEnd a b s
  | .memtestEnd repairs failed => Sys2Proof.Machine.execMemtestEnd repairs failed s
  | .stackEnd phy index region before spares => Sys2Proof.Machine.execStackEnd phy index region before spares s
  | .imageEnd boot golden => Sys2Proof.Machine.execImageEnd boot golden s
  | .linksEnd => Sys2Proof.Machine.execLinksEnd s
  | .pllLock => Sys2Proof.Machine.execPllLock s
  | .pllUnlock => Sys2Proof.Machine.execPllUnlock s
  | .samplingStart => Sys2Proof.Machine.execSamplingStart s
  | .sampleContainer ch k v la64 la8 dev selfErr other => Sys2Proof.Machine.execSampleContainer ch k v la64 la8 dev selfErr other s
  | .stretch island => Sys2Proof.Machine.execStretch island s
  | .stretchRestore island => Sys2Proof.Machine.execStretchRestore island s
  | .longSag island firstX count => Sys2Proof.Machine.execLongSag island firstX count s
  | .downlinkFrame dl f => Sys2Proof.Machine.execDownlinkFrame dl f s
  | .syncX => Sys2Proof.Machine.execSyncX s
  | .resync => Sys2Proof.Machine.execResync s
  | .orbitAct => Sys2Proof.Machine.execOrbitAct s
  | .calpulse => Sys2Proof.Machine.execCalpulse s
  | .accept => Sys2Proof.Machine.execAccept s
  | .orbitStart temps cmFaults => Sys2Proof.Machine.execOrbitStart temps cmFaults s
  | .gapStart => Sys2Proof.Machine.execGapStart s
  | .offlinePhaseEnd station levelSums => Sys2Proof.Machine.execOfflinePhaseEnd station levelSums s
  | .pedestalUpdate ch => Sys2Proof.Machine.execPedestalUpdate ch s
  | .sliceFault station slice => Sys2Proof.Machine.execSliceFault station slice s
  | .calRunRequest p v => Sys2Proof.Machine.execCalRunRequest p v s
  | .save p v => Sys2Proof.Machine.execSave p v s
  | .tempSetsSave => Sys2Proof.Machine.execTempSetsSave s
  | .dcTestStart => Sys2Proof.Machine.execDcTestStart s
  | .dcTestCurrentOff => Sys2Proof.Machine.execDcTestCurrentOff s
  | .injectionReturn src => Sys2Proof.Machine.execInjectionReturn src s
  | .feChWrite p ch v => Sys2Proof.Machine.execFeChWrite p ch v s
  | .exchangeFrame frac => Sys2Proof.Machine.execExchangeFrame frac s
  | .timeReport body => Sys2Proof.Machine.execTimeReport body s
  | .holdPhase => Sys2Proof.Machine.execHoldPhase s
  | .receiveLaneDown lane => Sys2Proof.Machine.execReceiveLaneDown lane s
  | .downlinkAligned lane => Sys2Proof.Machine.execDownlinkAligned lane s
  | .downlinkUp lane => Sys2Proof.Machine.execDownlinkUp lane s
  | .refFreqCheck lane kHz ppmPerS diffPpb => Sys2Proof.Machine.execRefFreqCheck lane kHz ppmPerS diffPpb s
  | .stake ring => Sys2Proof.Machine.execStake ring s
  | .roleArm body => Sys2Proof.Machine.execRoleArm body s
  | .launchBufferRead sid => Sys2Proof.Machine.execLaunchBufferRead sid s
  | .launchFrame frac => Sys2Proof.Machine.execLaunchFrame frac s
  | .regWrite => Sys2Proof.Machine.execRegWrite s
  | .inject => Sys2Proof.Machine.execInject s
  | .loadMeridian => Sys2Proof.Machine.execLoadMeridian s
  | .loadStaff => Sys2Proof.Machine.execLoadStaff s
  | .traverseStart => Sys2Proof.Machine.execTraverseStart s
  | .fwActivate => Sys2Proof.Machine.execFwActivate s
  | .roleSwapDecide => Sys2Proof.Machine.execRoleSwapDecide s
  | .decide body => Sys2Proof.Machine.execDecide body s
  | .roleSwap => Sys2Proof.Machine.execRoleSwap s
  | .capture p v => Sys2Proof.Machine.execCapture p v s
  | .timeOrbitNextWrite p v => Sys2Proof.Machine.execTimeOrbitNextWrite p v s
  | .apply p v => Sys2Proof.Machine.execApply p v s
  | .stnStagedWrite p offset v => Sys2Proof.Machine.execStnStagedWrite p offset v s
  | .filterApplication station => Sys2Proof.Machine.execFilterApplication station s
  | .filterOutput ch => Sys2Proof.Machine.execFilterOutput ch s
  | .detectorWindowEnd station => Sys2Proof.Machine.execDetectorWindowEnd station s
  | .groupFormed => Sys2Proof.Machine.execGroupFormed s
  | .macroWake bank => Sys2Proof.Machine.execMacroWake bank s
  | .primitiveFrame notReady => Sys2Proof.Machine.execPrimitiveFrame notReady s
  | .acceptServiceStart ecc row ue hitUe => Sys2Proof.Machine.execAcceptServiceStart ecc row ue hitUe s
  | .fragmentComplete seq => Sys2Proof.Machine.execFragmentComplete seq s
  | .trgWinWrite p v => Sys2Proof.Machine.execTrgWinWrite p v s
  | .trvStart p v => Sys2Proof.Machine.execTrvStart p v s
  | .trvStop p v => Sys2Proof.Machine.execTrvStop p v s
  | .traverseStep => Sys2Proof.Machine.execTraverseStep s
  | .traverseTimeout => Sys2Proof.Machine.execTraverseTimeout s
  | .selfAccept => Sys2Proof.Machine.execSelfAccept s
  | .loadAmp => Sys2Proof.Machine.execLoadAmp s
  | .addAmp => Sys2Proof.Machine.execAddAmp s
  | .count => Sys2Proof.Machine.execCount s
  | .alert => Sys2Proof.Machine.execAlert s
  | .stop => Sys2Proof.Machine.execStop s
  | .contourTest mask => Sys2Proof.Machine.execContourTest mask s
  | .contourViolation mask => Sys2Proof.Machine.execContourViolation mask s
  | .blockWrite ue => Sys2Proof.Machine.execBlockWrite ue s
  | .indexEntryWrite period station => Sys2Proof.Machine.execIndexEntryWrite period station s
  | .recall ring => Sys2Proof.Machine.execRecall ring s
  | .recallUnit ecc row => Sys2Proof.Machine.execRecallUnit ecc row s
  | .futureTimeout rid => Sys2Proof.Machine.execFutureTimeout rid s
  | .pinCopy ecc row => Sys2Proof.Machine.execPinCopy ecc row s
  | .unpin ring => Sys2Proof.Machine.execUnpin ring s
  | .scrubRead bytes row ecc => Sys2Proof.Machine.execScrubRead bytes row ecc s
  | .scrubPassEnd => Sys2Proof.Machine.execScrubPassEnd s
  | .taps body => Sys2Proof.Machine.execTaps body s
  | .ready body => Sys2Proof.Machine.execReady body s
  | .restart body => Sys2Proof.Machine.execRestart body s
  | .laneSwitch lane => Sys2Proof.Machine.execLaneSwitch lane s
  | .laneJoin lane => Sys2Proof.Machine.execLaneJoin lane s
  | .trainTimeout lane => Sys2Proof.Machine.execTrainTimeout lane s
  | .backoffEnd lane => Sys2Proof.Machine.execBackoffEnd lane s
  | .brixTrainingSequence port syms => Sys2Proof.Machine.execBrixTrainingSequence port syms s
  | .laneDown body => Sys2Proof.Machine.execLaneDown body s
  | .uplinkFault lane => Sys2Proof.Machine.execUplinkFault lane s
  | .ulEnWrite p v => Sys2Proof.Machine.execUlEnWrite p v s
  | .dlTap dl eye req => Sys2Proof.Machine.execDlTap dl eye req s
  | .packetFlush cls => Sys2Proof.Machine.execPacketFlush cls s
  | .packetStart lane ue => Sys2Proof.Machine.execPacketStart lane ue s
  | .packetSent lane => Sys2Proof.Machine.execPacketSent lane s
  | .splAck body => Sys2Proof.Machine.execSplAck body s
  | .splNak body => Sys2Proof.Machine.execSplNak body s
  | .ackTimeout cls seq => Sys2Proof.Machine.execAckTimeout cls seq s
  | .splCreditWrite p cls v => Sys2Proof.Machine.execSplCreditWrite p cls v s
  | .splShareWrite p cls v => Sys2Proof.Machine.execSplShareWrite p cls v s
  | .controlMessageDrop raw => Sys2Proof.Machine.execControlMessageDrop raw s
  | .doorbell body => Sys2Proof.Machine.execDoorbell body s
  | .readData body => Sys2Proof.Machine.execReadData body s
  | .readTimeout rtag => Sys2Proof.Machine.execReadTimeout rtag s
  | .regAccessRead body => Sys2Proof.Machine.execRegAccessRead body s
  | .regAccessWrite body => Sys2Proof.Machine.execRegAccessWrite body s
  | .descriptorFetch => Sys2Proof.Machine.execDescriptorFetch s
  | .descriptorReserved ring => Sys2Proof.Machine.execDescriptorReserved ring s
  | .nop ring => Sys2Proof.Machine.execNop ring s
  | .abort ring => Sys2Proof.Machine.execAbort ring s
  | .tieRead ring => Sys2Proof.Machine.execTieRead ring s
  | .completionRelease => Sys2Proof.Machine.execCompletionRelease s
  | .ringCfgWrite p ring v => Sys2Proof.Machine.execRingCfgWrite p ring v s
  | .brixFrame port f => Sys2Proof.Machine.execBrixFrame port f s
  | .ringRoute body => Sys2Proof.Machine.execRingRoute body s
  | .hopReport port body => Sys2Proof.Machine.execHopReport port body s
  | .hubStatus port body => Sys2Proof.Machine.execHubStatus port body s
  | .ringMap port body => Sys2Proof.Machine.execRingMap port body s
  | .bypassOpen => Sys2Proof.Machine.execBypassOpen s
  | .leave p v => Sys2Proof.Machine.execLeave p v s
  | .mirror body => Sys2Proof.Machine.execMirror body s
  | .closureSend => Sys2Proof.Machine.execClosureSend s
  | .closure body => Sys2Proof.Machine.execClosure body s
  | .closureMissing => Sys2Proof.Machine.execClosureMissing s
  | .roleTakeover => Sys2Proof.Machine.execRoleTakeover s
  | .split => Sys2Proof.Machine.execSplit s
  | .ringTable ring => Sys2Proof.Machine.execRingTable ring s
  | .ringAdmit ring => Sys2Proof.Machine.execRingAdmit ring s
  | .ringRelease ring => Sys2Proof.Machine.execRingRelease ring s
  | .srvStart p v => Sys2Proof.Machine.execSrvStart p v s
  | .srvStop p v => Sys2Proof.Machine.execSrvStop p v s
  | .selfcal p v => Sys2Proof.Machine.execSelfcal p v s
  | .surveyPassPeriod => Sys2Proof.Machine.execSurveyPassPeriod s
  | .surveyConversionEnd code => Sys2Proof.Machine.execSurveyConversionEnd code s
  | .surveyOutput code => Sys2Proof.Machine.execSurveyOutput code s
  | .excitationFault => Sys2Proof.Machine.execExcitationFault s
  | .selfcalStart => Sys2Proof.Machine.execSelfcalStart s
  | .selfcalEnd => Sys2Proof.Machine.execSelfcalEnd s
  | .resultStale point ageMs => Sys2Proof.Machine.execResultStale point ageMs s
  | .srvRead ring => Sys2Proof.Machine.execSrvRead ring s
  | .srvDump ring => Sys2Proof.Machine.execSrvDump ring s
  | .memWinPlain p w v => Sys2Proof.Machine.execMemWinPlain p w v s
  | .memWinSet p w v => Sys2Proof.Machine.execMemWinSet p w v s
  | .memWinClr p w v => Sys2Proof.Machine.execMemWinClr p w v s
  | .patrolRead bank addr column ecc => Sys2Proof.Machine.execPatrolRead bank addr column ecc s
  | .patrolPassEnd => Sys2Proof.Machine.execPatrolPassEnd s
  | .marchLine pass => Sys2Proof.Machine.execMarchLine pass s
  | .memMarch ring => Sys2Proof.Machine.execMemMarch ring s
  | .memLogRead ring => Sys2Proof.Machine.execMemLogRead ring s
  | .memRepair ring => Sys2Proof.Machine.execMemRepair ring s
  | .doseRead dose fluence => Sys2Proof.Machine.execDoseRead dose fluence s
  | .ceClr p v => Sys2Proof.Machine.execCeClr p v s
  | .confClr p v => Sys2Proof.Machine.execConfClr p v s
  | .lockstepMismatch engine => Sys2Proof.Machine.execLockstepMismatch engine s
  | .engineResume e newestOk olderOk => Sys2Proof.Machine.execEngineResume e newestOk olderOk s
  | .fwOpen ring => Sys2Proof.Machine.execFwOpen ring s
  | .fwChunk ring => Sys2Proof.Machine.execFwChunk ring s
  | .fwClose ring => Sys2Proof.Machine.execFwClose ring s
  | .fwDrop ring => Sys2Proof.Machine.execFwDrop ring s
  | .sessionAbandon slot => Sys2Proof.Machine.execSessionAbandon slot s
  | .fwCopyDone read => Sys2Proof.Machine.execFwCopyDone read s
  | .fwFallback => Sys2Proof.Machine.execFwFallback s
  | .fwCommit ring => Sys2Proof.Machine.execFwCommit ring s
  | .certRead ring => Sys2Proof.Machine.execCertRead ring s
  | .attest ring => Sys2Proof.Machine.execAttest ring s
  | .spiRead cmd addr bits => Sys2Proof.Machine.execSpiRead cmd addr bits s
  | .spiWrite cmd addr words tailBits => Sys2Proof.Machine.execSpiWrite cmd addr words tailBits s
  | .topLockWrite p v => Sys2Proof.Machine.execTopLockWrite p v s
  | .topUnlock p v => Sys2Proof.Machine.execTopUnlock p v s
  | .registerWrite p addr v => Sys2Proof.Machine.execRegisterWrite p addr v s
  | .signalDetect lane => Sys2Proof.Machine.execSignalDetect lane s
  | .surveySettlingEnd fault openOver => Sys2Proof.Machine.execSurveySettlingEnd fault openOver s
  | .boundaryScanInstruction ins resetNLow trstNLow => Sys2Proof.Machine.execBoundaryScanInstruction ins resetNLow trstNLow s

end Sys2Proof.Machine
end

