-- ==== Sys2Proof/Machine/Pins.lean ====
section
/-!
DEFINITION. The states of the pins (16 R458, R460, Table 16.5). An unpowered hub is no state of the model; a power reset,
which lasts while a rail is low, is phase RAILS.
-/

namespace Sys2Proof.Machine

open Sys2Proof

/-- The rows of Table 16.5: front-end channel `c`, downlink, uplink `n`, Brix port, survey pin `k`. -/
inductive Ball where
  | ain (c : Nat)
  | refclk
  | downlink (d : Downlink)
  | ultx (n : Nat)
  | brixRx (pt : Port)
  | brixTx (pt : Port)
  | sv (k : Nat)
  | svref
  | svcom
  | spiIn
  | spiMiso
  | resetN
  | hubOk
  | alertN
  | bypassSt
  | tap
  deriving DecidableEq, Repr

/-- What a pin does. -/
inductive BallState where
  | highZ
  /-- 100 Ω termination and bias network; the front end's setting once it applies, and whether it is on. -/
  | frontEnd (setting : Option Word) (on : Bool)
  /-- A receiver, listening or terminated and idle. -/
  | receiver (on : Bool)
  /-- A lane's transmitter, sending or in electrical idle. -/
  | transmitter (sending : Bool)
  /-- Joined to the other port's ball by the closed bypass; a receive ball may be listened to. -/
  | bypassed (listening : Bool)
  | survey (use : SvPin)
  /-- A level held in mV. -/
  | level (mV : Nat)
  /-- A digital input, served or ignored. -/
  | input (served : Bool)
  /-- Driven with the bits of the reply to the transaction under way (17 R471). -/
  | reply
  | driven (high : Bool)
  /-- An open-drain output, pulled low or released. -/
  | openDrain (low : Bool)
  deriving DecidableEq, Repr

/-- A trained lane's transmitter sends, but in OFF and BACKOFF (09 Table 9.6). -/
def TState.sends (t : TState) : Bool := t != .off && t != .backoff

/-- The survey port is powered, so that its pins are driven or used: by EN, or by the hub for a read (13 R366, R367, R387), in
start-up, FAULT among it, and RUN (16 Table 16.5). -/
def State.svEnabled (s : State) : Bool :=
  s.past .rails && (bit (s.reg Reg.srvCtl) 0 || s.readingNow)

/-- The state of a pin. `csLow`: SPI_CS_N is low. -/
def State.ball (s : State) (csLow : Bool) : Ball → BallState
  | .ain c => .frontEnd (if s.past .fuse then some (s.fe c) else none) s.time.sampling
  | .refclk => .receiver true
  | .downlink _ => .receiver (s.past .fuse)
  | .ultx n => .transmitter (s.lane n).st.sends
  | .brixRx _ => if s.brix.bypassOpen then .receiver true else .bypassed s.listening
  | .brixTx pt => if s.brix.bypassOpen then .transmitter (s.lane (portLane pt)).st.sends else .bypassed false
  | .sv k => if s.svEnabled then .survey (s.svPin k) else .highZ
  | .svref => if s.svEnabled then .input true else .highZ
  | .svcom => if s.svEnabled then .level 600 else .highZ
  | .spiIn => .input (s.past .fuse)
  | .spiMiso => if csLow && s.power.phase != .rails then .reply else .highZ
  | .resetN => .input true
  | .hubOk => .driven s.hubOk
  | .alertN => .openDrain s.alertLow
  | .bypassSt => .openDrain s.bypassStLow
  | .tap => .input true

end Sys2Proof.Machine
end

