-- ==== Sys2Proof/Safety.lean ====
section
/-!
DEFINITION. What counts as a safe run of the hub, in the terms the statements use: a step is safe when it answers a next
state. The hub has no stop of its own, so what a run has to keep is said as invariants of its state.
-/

namespace Sys2Proof.Machine

open Sys2Proof

/-- A step from `s` answers a next state. -/
def Safe (s : State) : Prop := ∃ t, step s = .next t

/-- A command answers a next state, and `P` holds of it. -/
def Answers (c : Instr) (s : State) (P : State → Prop) : Prop := ∃ t, exec c s = .next t ∧ P t

/-- Every register word but those of `l` is as before. -/
def SameRegs (l : List Nat) (s t : State) : Prop := ∀ a, a ∉ l → t.reg a = s.reg a

/-- The W1C event bit `b` of a register is set, and its other bits are as before (00 R11). -/
def EventSet (a b : Nat) (s t : State) : Prop := t.reg a = s.reg a ||| place 1 b

/-- The outcomes committed and not yet written to the host: those released, in order, then the others (11 R330). -/
def State.outcomes (s : State) : List Completion := s.ctl.released ++ s.ctl.committed

/-- One more outcome has been committed; whichever may be released are (11 R330). -/
def OutcomeAdded (c : Completion) (s t : State) : Prop := t.outcomes.Perm (s.outcomes ++ [c])

/-- A completion of an operation has been committed beside the others (11 R328, R330). -/
def Committed (ring sq status : Nat) (tag : Word) (s t : State) : Prop :=
  ∃ c : Completion, OutcomeAdded c s t ∧ c.ring = ring ∧ c.sq = sq ∧ c.status = BitVec.ofNat 8 status ∧ c.tag = tag

/-- No ABORT waits for the fetch of a descriptor of this ring (11 R332; notes/assumptions/87.md). -/
abbrev NoAbortWaits (s : State) (r : Nat) : Prop := ∀ a ∈ s.ctl.aborts, a.targetRing ≠ r

/-- A stake has run and left the table: OK, or RAN_LATE, with the Datum at which it ran and a departure stamp
(02 R74). -/
def StakeRan (k : Stake) (stamp : Nat) (s t : State) : Prop :=
  t.stakes = s.stakes.filter (fun q => q.sid != k.sid) ∧
    ∃ c : Completion, OutcomeAdded c s t ∧ c.ring = k.ring ∧ c.sq = k.sq ∧ c.tag = k.tag ∧
      c.status = BitVec.ofNat 8 (if k.lateAt.isSome then Status.ranLate else Status.ok) ∧
      c.result = leBytes 8 s.datum ++ leBytes 8 stamp

/-- A stake has left the table without running, with a status (02 R70, R71, R75). -/
def StakeEnded (k : Stake) (status : Nat) (s t : State) : Prop :=
  t.stakes = s.stakes.filter (fun q => q.sid != k.sid) ∧ Committed k.ring k.sq status k.tag s t

/-- A descriptor has been accepted and its outcome committed with a status (11 R325, R330). -/
def Finished (ring : Nat) (f : Fetched) (status : Nat) (s t : State) : Prop := Committed ring f.sq status f.tag s t

/-- The descriptor `f` is next to be accepted on a ring, has opcode `op`, no ABORT marks it, and its header's reserved bits
are 0 (11 R325, R332). -/
abbrev Accepts (s : State) (ring : Nat) (f : Fetched) (op : Nat) : Prop :=
  s.acceptNext ring = some f ∧ f.opcode = op ∧ memNat (s.ring ring).marked f.sq = false ∧ f.headerOk = true

/-- A write reaches its register: the path serves, and the page is not locked (16 R456, 17 R479). -/
abbrev Reaches (s : State) (p : Path) (a : Nat) : Prop := s.served p = true ∧ s.pageLocked (a / 0x1000) = false

/-- The register at address `a`, kept under `key`, took its writable bits from the word, and its W1C bits are cleared
where the word is 1 (00 R11, 17 R466). -/
def Took (a key : Nat) (v : Word) (s t : State) : Prop := ∃ r, regRow a = some r ∧ t.reg key = r.stored (s.reg key) v

/-- Nothing but what the access paths keep for themselves, the registers and the fields that `u` shares with `t` differs:
`u` is `s` with those fields of `t`. -/
def State.withPaths (u t : State) : State :=
  { u with regs := t.regs, spi := t.spi, downlink := t.downlink, stakePath := t.stakePath }

/-- Nothing but transmit lane `n` differs. -/
def OtherLanes (n : Nat) (s t : State) : Prop := (∀ m, m ≠ n → t.lane m = s.lane m) ∧ t = { s with txLanes := t.txLanes }

/-- Lane `n`, and no other, has sent `item`, after idle characters when it is an item of a data lane, fewer than a crossing has:
its running disparity goes on from what it was, and ends where the item's characters leave it (09 R264, R265). -/
def Sent (n : Nat) (item : LineItem) (s t : State) : Prop :=
  (∃ rd k, t.tx = .line n rd item :: ((if item.afterIdles then [.line n (s.lane n).rd (.idle k)] else []) ++ s.tx) ∧
    (t.lane n).rd = disparityAfter rd item.chars ∧
    (rd = (s.lane n).rd ↔ (item.afterIdles = false ∨ k % 2 = 0)) ∧ (item.afterIdles = true → k < (s.lane n).rate)) ∧ ∀ m, m ≠ n → t.lane m = s.lane m

/-- The sequencer has entered state `next` at crossing `at_`; 0xFF stops it, and a number beyond the table counts modulo its size
(06 Table 6.8; notes/assumptions/23.md). -/
abbrev TrvEntered (next at_ : Nat) (s t : State) : Prop :=
  (next = 0xFF → t.trig.trv.run = false ∧ t.trig.trv.state = s.trig.trv.state) ∧
    (next ≠ 0xFF → t.trig.trv.run = s.trig.trv.run ∧ t.trig.trv.state = next % 64 ∧ t.trig.trv.entered = at_)

/-- Nothing waits for time to pass: no lane trains or has taps to change, no data lane that is UP has idle characters to send, the
bypass is closed and the hub is no head with a role, nothing waits to be mirrored, no arm's loss among it, and neither results of
a DC test, an activation nor the read of a chunk are pending. -/
def Quiet (s : State) : Prop :=
  (∀ q ∈ s.txLanes, (s.lane q.1).st.training = false ∧ (s.lane q.1).taps = [] ∧
      (2 ≤ q.1 → q.1 < 32 → (s.lane q.1).st = .up → (s.lane q.1).job ≠ .idle)) ∧ s.brix.bypassOpen = false ∧
    s.brix.role = .none ∧ s.brix.mirrorOut = [] ∧ s.brix.armsGone = [] ∧ s.dcTest.held = none ∧ s.fw.act = none ∧
    ∀ c ∈ s.fw.chunkOps, c.toRead = false

/-- The user area of CTRL SRAM is in canonical form, within its 128 KiB (14 R395). -/
abbrev UserWf (s : State) : Prop := tabWf (fun _ => 0) s.mem.user = true ∧ ∀ e ∈ s.mem.user, e.1 < 131072

/-- Orbit values that R46 admits are in effect (02 R46). -/
abbrev OrbitWf (s : State) : Prop :=
  1024 ≤ s.n ∧ s.n ≤ 8191 ∧ 32 ≤ s.g ∧ s.g ≤ 1023 ∧ s.g + 512 ≤ s.n

/-- The orbit values staged in TIME_ORBIT_NEXT are values that R46 admits. -/
abbrev StagedWf (s : State) : Prop := orbitOk (s.reg Reg.timeOrbitNext) = true

/-- At most 64 stakes are pending (02 R73). -/
abbrev StakesWf (s : State) : Prop := s.stakes.length ≤ 64

/-- At most the last 64 tie records are kept (02 R68). -/
abbrev TiesWf (s : State) : Prop := s.ties.length ≤ 64

end Sys2Proof.Machine
end

