-- ==== Sys2Proof/Certificates/Slice0/Obligations.lean ====
section
/-!
DEFINITION. The statements about the hub that the provers prove: each is a proposition, listed in OBLIGATIONS.json.
-/

open Sys2Proof Sys2Proof.Machine

/-- When a command waits at the front of the queue, a step is `exec` of it on the state with the rest of the queue. -/
def Obligations.StepRunsTheFrontCommand : Prop :=
  ∀ (s : State) (c : Instr) (rest : List Instr), s.pending = c :: rest → step s = exec c { s with pending := rest }

/-- On an empty queue, with no soft reset due and nothing that waits for time to pass, a step lets one crossing pass (the
model's choice, log entry 3): the hub's own count goes up by one, the running count too while sampling runs, the Datum goes
to the next crossing or to crossing 0 of the next orbit, Meridian advances by the crossing's period once it has been loaded
and stands still before, the scrub's debt is followed, and no register, memory, stake, ring or transmitted record changes. -/
def Obligations.EmptyQueuePassesACrossing : Prop :=
  ∀ s : State, s.pending = [] → Quiet s → s.tick.softResetDue = false → ∃ t, step s = .next t ∧
    t.time.now = s.time.now + 1 ∧
    t.time.xcount = (if s.time.sampling then (s.time.xcount + 1) % 2 ^ 64 else s.time.xcount) ∧
    (s.time.cross + 1 = s.n → t.time.cross = 0 ∧ t.time.orbit = (s.time.orbit + 1) % 2 ^ 44) ∧
    (s.time.cross + 1 ≠ s.n → t.time.cross = (s.time.cross + 1) % 2 ^ 13 ∧ t.time.orbit = s.time.orbit) ∧
    (s.epochSet = true → t.time.merFrac = (s.time.merFrac + s.period) % 2 ^ 24 ∧
      t.time.merPs = (s.time.merPs + (s.time.merFrac + s.period) / 2 ^ 24) % 10 ^ 12 ∧
      t.time.merS = (s.time.merS + (s.time.merPs + (s.time.merFrac + s.period) / 2 ^ 24) / 10 ^ 12) % 2 ^ 64) ∧
    (s.epochSet = false → t.time.merS = s.time.merS ∧ t.time.merPs = s.time.merPs) ∧
    t.hist = { s.hist with scrubDebt := t.hist.scrubDebt } ∧ t = { s with
      time := t.time, spool := t.spool, trig := t.trig, brixP := t.brixP, brixQ := t.brixQ, hist := t.hist }

/-- No row of the table has bits: no word spells a command, and placing one leaves the state as it is. -/
def Obligations.NoWordSpellsACommand : Prop :=
  ∀ (s : State) (nbits w : Nat), decodeTableWord nbits w = none ∧ s.withFetchWord nbits w = s

/-- Right after reset the hub is in phase RAILS with HUB_OK low and its bypass closed, every register word reads its reset
value, nothing is sampled, stored, staked, held or in flight, every lane is down, and no command waits. -/
def Obligations.ResetStateIsEmpty : Prop :=
  let s := State.reset
  s.power.phase = .rails ∧ s.hubOk = false ∧ s.brix.bypassOpen = false ∧ (∀ a, s.reg a = regReset a) ∧
    s.time.sampling = false ∧ s.time.plumb = 0 ∧ s.time.merS = 0 ∧ s.time.merPs = 0 ∧ s.stakes = [] ∧ s.ties = [] ∧
    s.dla.stat = .los ∧ s.dlb.stat = .los ∧ s.brixP.stat = .los ∧ s.brixQ.stat = .los ∧
    (∀ l, (s.lane l).st = .off) ∧ (∀ c, (s.cls c).queue = [] ∧ (s.cls c).held = [] ∧ (s.cls c).open_ = none) ∧
    (∀ r, (s.ring r).st = 0 ∧ (s.ring r).accepted = []) ∧ s.ctl.reads = [] ∧ s.hist.index = [] ∧ s.hist.pins = [] ∧
    s.hist.recalls = [] ∧ s.trig.hitRing = [] ∧ s.trig.accQueue = [] ∧ s.pending = []

/-- At reset the user area of CTRL SRAM is canonical and within its 128 KiB, N and G in effect, and those staged, are values that
R46 admits, at most 64 stakes are pending and at most 64 tie records are kept. -/
def Obligations.ResetMeetsTheInvariants : Prop :=
  UserWf State.reset ∧ OrbitWf State.reset ∧ StagedWf State.reset ∧ StakesWf State.reset ∧ TiesWf State.reset

/-- From any state whose user area is in canonical form (rising byte addresses below 131,072, no byte listed that reads as
an unlisted one does), every step, whatever command runs or when none waits, leaves it so. -/
def Obligations.EveryStepKeepsTheUserAreaCanonical : Prop :=
  ∀ s t : State, UserWf s → step s = .next t → UserWf t

/-- From any state with at most 64 pending stakes and at most 64 kept tie records, every step leaves at most 64 of each. From any
state in which N and G in effect, and those staged in TIME_ORBIT_NEXT, are values that R46 admits, every step leaves both so. -/
def Obligations.EveryStepKeepsTheTablesBounded : Prop :=
  (∀ s t : State, StakesWf s → TiesWf s → step s = .next t → StakesWf t ∧ TiesWf t) ∧
  (∀ s t : State, OrbitWf s → StagedWf s → step s = .next t → OrbitWf t ∧ StagedWf t)
/-- A power reset restarts at RAILS with Plumb 0 and records which rails fell. A RESET_N pulse of 0.5 µs or more outside a
power reset, and the soft reset 10 µs after a write of the key 0xA55A, restart at FUSE with Plumb kept; a pulse below 0.4 µs
does nothing. The write with the key only starts the 10 µs, one with another key does nothing, and the reset comes when the
crossings that pass on an empty queue complete them (the model's choice, log entries 3 and 69). Each reset closes the bypass,
sets every register but PWR_RESET_CAUSE to its reset value, the measured rail voltages too, and discards stakes, the spool, the
history store and the rings; the settings area, the revocation bits, the record of what was sent and the queue survive. -/
def Obligations.ResetsRestartTheStartUpSequence : Prop :=
  (∀ rails s, Answers (.powerReset rails) s fun t => t.power.phase = .rails ∧ t.time.plumb = 0 ∧
    t.brix.bypassOpen = false ∧ t.stakes = [] ∧ t.spool = .init ∧ t.hist = .init ∧ t.ctl = .init ∧
    bits (t.reg Reg.pwrResetCause) 2 0 = 1 ∧ bits (t.reg Reg.pwrResetCause) 24 16 = rails.toNat ∧
    (∀ a, a ≠ Reg.pwrResetCause → t.reg a = regReset a) ∧ t.fw.settings = s.fw.settings ∧ t.tx = s.tx ∧
    t.fw.idRevoked = s.fw.idRevoked ∧ t.railMv = [] ∧ t.railMin = [] ∧ t.pending = s.pending) ∧
  (∀ lowNs s, 500 ≤ lowNs → s.power.phase ≠ .rails → Answers (.pinReset lowNs) s fun t =>
    t.power.phase = .fuse ∧ t.time.plumb = s.time.plumb ∧ t.brix.bypassOpen = false ∧ t.stakes = [] ∧
    t.spool = .init ∧ t.hist = .init ∧ t.ctl = .init ∧ bits (t.reg Reg.pwrResetCause) 2 0 = 2 ∧
    (∀ a, a ≠ Reg.pwrResetCause → t.reg a = regReset a) ∧ t.fw.settings = s.fw.settings ∧ t.tx = s.tx ∧
    t.fw.idRevoked = s.fw.idRevoked ∧ t.railMv = [] ∧ t.railMin = [] ∧ t.pending = s.pending) ∧
  (∀ lowNs s, lowNs < 400 → exec (.pinReset lowNs) s = .next s) ∧
  (∀ p v s, Reaches s p Reg.pwrSoftReset → bits v 15 0 = 0xA55A → Answers (.softReset p v) s fun t =>
    t.power = { s.power with softReset := some (s.power.softReset.getD s.time.now) } ∧ SameRegs [Reg.pwrSoftReset] s t ∧
    t = State.withPaths { s with power := t.power } t) ∧
  (∀ p v s, Reaches s p Reg.pwrSoftReset → bits v 15 0 ≠ 0xA55A → Answers (.softReset p v) s fun t =>
    SameRegs [Reg.pwrSoftReset] s t ∧ t = s.withPaths t) ∧
  (∀ s : State, s.pending = [] → Quiet s → s.tick.softResetDue = true → ∃ t, step s = .next t ∧
      t.power.phase = .fuse ∧ t.time.plumb = s.tick.time.plumb ∧
      t.brix.bypassOpen = false ∧ t.stakes = [] ∧ t.spool = .init ∧ t.hist = .init ∧ t.ctl = .init ∧
      bits (t.reg Reg.pwrResetCause) 2 0 = 4 ∧ (∀ a, a ≠ Reg.pwrResetCause → t.reg a = regReset a) ∧
      t.fw.settings = s.fw.settings ∧ t.fw.idRevoked = s.fw.idRevoked ∧ t.tx = s.tx ∧ t.railMv = [] ∧ t.railMin = [] ∧
      t.pending = s.pending)

/-- RAILS_END, FUSE_END, SETTINGS_END with a usable copy, MEMTEST_END with every bank covered, STACK_END with a good stack,
IMAGE_END and LINKS_END, each in its own phase, go on to the next phase of Table 16.3; RAILS_END measures every rail at its rise
threshold or above, FUSE_END starts the PLL's acquisition, a failing settings copy is recorded in FAULT_PHASE, MEMTEST_END leaves
the user area and the upset log cleared, STACK_END with no recorded row takes over the stack's counts, with one it makes it hard
or, with no spare row left for it, leaves it recorded and sets REPAIR_EXHAUSTED (that a soft repair would find no spare either is
the model's reading, log entry 28), IMAGE_END loads ID_HUB_ID and starts every engine from the boot slot, from the golden slot when that one
fails its check, or none with BOOT_FAIL when both fail, and LINKS_END goes to TIME. It goes past TIME at once when the servo is LOCKED or nothing is to be waited for: to CAL,
where every station that runs is asked for its calibration run, or with CAL_CTL.MODE = 00 to JOIN or RUN; after BOOT_FAIL it stays
in TIME. In another phase each of the events does nothing. -/
def Obligations.StartUpPhasesAdvance : Prop :=
  (∀ s, s.power.phase = .rails → Answers .railsEnd s fun t =>
    t.power = { s.power with phase := .fuse, railAt := s.time.now } ∧
    (∀ k, k < 9 → 93 * railNominal k ≤ 100 * t.railV k) ∧ t = { s with power := t.power, railMv := t.railMv, railMin := t.railMin, fresh := t.fresh }) ∧
  (∀ s, s.power.phase = .fuse → Answers .fuseEnd s fun t =>
    t.power = { s.power with phase := .settings, pllAcq := true } ∧ t.reg Reg.idPart = partWord ∧
    t = { s with power := t.power, regs := t.regs }) ∧
  (∀ (a b : CopyRead) s, s.power.phase = .settings → (copyOk a || copyOk b) = true → Answers (.settingsEnd a b) s fun t =>
    t.power = { s.power with phase := .memtest, copyAOk := copyOk a, copyBOk := copyOk b,
                             faultPhase := if copyOk a && copyOk b then s.power.faultPhase else 2,
                             faultDetail := if copyOk a && copyOk b then s.power.faultDetail else 0 } ∧
    t.fw = { s.fw with bootSlot := s.fw.settings.bootSlot, minSec := s.fw.settings.minSec,
                       revoked := s.fw.idRevoked } ∧
    t = { (s.storeRead a.read).storeRead b.read with power := t.power, fw := t.fw }) ∧
  (∀ s, s.power.phase = .memtest → s.fw.settings.columns = [] →
    Answers (.memtestEnd [] none) s fun t => t = { s with power := { s.power with phase := .stack }, mem := { s.mem with user := [], log := [] } }) ∧
  (∀ before spares s, s.power.phase = .stack → s.fw.settings.rows = [] → Answers (.stackEnd true true true before spares) s fun t =>
    t = { s with power := { s.power with phase := .image }, hist := { s.hist with scrubStart := s.time.now }
                 mem := { s.mem with softRepairs := 0, hardRepairs := min 255 before, pendingHard := 0, spareRows := spares } }) ∧
  (∀ before (spares : List Nat) s row n, s.power.phase = .stack → s.fw.settings.rows = [row] →
    n = (spares.drop (Config.rowGroup row)).headD 0 → Answers (.stackEnd true true true before spares) s fun t =>
      t.power = { s.power with phase := .image } ∧ SameRegs [Reg.memStat] s t ∧ t.mem.softRepairs = 0 ∧
      (0 < n → t.mem.hardRepairs = satInc 255 (min 255 before) ∧ t.mem.pendingHard = 0 ∧
        t.fw.settings.rows = [] ∧ t.spareRow row = n - 1 ∧ t.regs = s.regs) ∧
      (n = 0 → EventSet Reg.memStat 4 s t ∧ t.fw = s.fw ∧ t.mem.spareRows = spares ∧ t.mem.pendingHard = 1 ∧
        t.mem.hardRepairs = min 255 before)) ∧
  (∀ (gr : StoreRead) s, s.power.phase = .image → s.power.settingsBad = false → s.fw.bootSlot ≠ 0 → s.fw.settings.sets = [] →
    Answers (.imageEnd ⟨[], none⟩ gr) s fun t =>
      (s.bootable s.fw.bootSlot true = true → t.fw.runSlot = s.fw.bootSlot ∧
        t.fw.bootFellBack = s.fw.bootFellBack ∧ t.mem = s.mem) ∧
      (s.bootable s.fw.bootSlot true = false → s.bootable 0 gr.bad.isNone = true → t.fw.runSlot = 0 ∧ (t.slot s.fw.bootSlot).st = .bad ∧
        t.fw.bootFellBack = true ∧ bit (t.reg Reg.fwStat) 9 = true ∧ t.mem = (s.storeRead gr).mem) ∧
      (s.bootable s.fw.bootSlot true = false → s.bootable 0 gr.bad.isNone = false → t.power.bootFail = true ∧ t.power.phase = .links ∧
        t.power.faultPhase = 5 ∧ t.power.faultDetail = 0xFE ∧ (t.slot 0).st = .bad ∧ bit (t.reg Reg.fwStat) 10 = true) ∧
      ((s.bootable s.fw.bootSlot true || s.bootable 0 gr.bad.isNone) = true → t.power = { s.power with phase := .links, copyAOk := true, copyBOk := true } ∧
        ∀ k, k < 8 → (t.engine k).running = true ∧ (t.engine k).restarting = false) ∧
      bits (t.reg Reg.idHubId) 15 0 = s.fw.settings.hubId.getD 0 % 65536 ∧ t.stakes = s.stakes ∧ t.time = s.time) ∧
  (∀ s, s.power.phase = .links → s.time.sampling = true → s.linksMet = true → s.servoState ≠ 2 →
    (s.refSel = 3 → s.framing.isSome = true) → Answers .linksEnd s fun t =>
      t = { s with power := { s.power with phase := .time } }) ∧
  (∀ s, s.power.phase ≠ .rails → exec .railsEnd s = .next s) ∧ (∀ s, s.power.phase ≠ .fuse → exec .fuseEnd s = .next s) ∧
  (∀ s, s.power.phase ≠ .links → exec .linksEnd s = .next s) ∧
  (∀ a b s, s.power.phase ≠ .settings → exec (.settingsEnd a b) s = .next s) ∧
  (∀ l b s, s.power.phase ≠ .memtest → exec (.memtestEnd l b) s = .next s) ∧
  (∀ a b c k l s, s.power.phase ≠ .stack → exec (.stackEnd a b c k l) s = .next s) ∧
  (∀ a b s, s.power.phase ≠ .image → exec (.imageEnd a b) s = .next s) ∧
  (∀ s, s.power.phase = .links → s.time.sampling = true → s.linksMet = true → s.power.bootFail = true → Answers .linksEnd s fun t =>
    t = { s with power := { s.power with phase := .time } }) ∧
  (∀ s j, s.power.phase = .links → s.time.sampling = true → s.linksMet = true → s.power.bootFail = false →
    (s.servoState = 2 ∨ (s.refSel = 3 ∧ s.framing = none)) → s.fld Reg.calCtl 1 0 ≠ 0 → j < 32 → (s.stn j).st ≠ 3 →
    Answers .linksEnd s fun t => t.power.phase = .cal ∧
      (∀ k, k < 32 → ((s.stn k).st ≠ 3 → t.stn k = { s.stn k with runReq := true } ∧ memNat t.power.calWait k = true) ∧
        ((s.stn k).st = 3 → t.stn k = s.stn k ∧ memNat t.power.calWait k = false)) ∧ SameRegs [] s t ∧ t.time = s.time) ∧
  (∀ s, s.power.phase = .links → s.time.sampling = true → s.linksMet = true → s.power.bootFail = false →
    (s.servoState = 2 ∨ (s.refSel = 3 ∧ s.framing = none)) → s.fld Reg.calCtl 1 0 = 0 → Answers .linksEnd s fun t =>
      t.power.phase = (if s.ringMember = true ∧ s.brix.bypassOpen = false then .join else .run) ∧
      SameRegs [Reg.pwrStartup] s t ∧ t = { s with power := t.power, regs := t.regs })

/-- With both settings copies bad, SETTINGS_BAD is set and the sequence goes on with empty settings, but for FW_MIN_SEC, which never
falls (the model's choice, log entry 109), and the revocation bits of the identity area; a bank that cannot be covered, among them
one that has no spare left for a line or column that fails the test, and a stack that fails stop start-up in FAULT with their phase and detail recorded, where HUB_OK is low and only the
SPI port serves. -/
def Obligations.StartUpFailuresAreRecorded : Prop :=
  (∀ (a b : CopyRead) s, s.power.phase = .settings → copyOk a = false → copyOk b = false → Answers (.settingsEnd a b) s fun t =>
    t.power = { s.power with phase := .memtest, copyAOk := false, copyBOk := false, settingsBad := true,
                             faultPhase := 2, faultDetail := 0 } ∧
    t.fw = { s.fw with settings := { Settings.init with minSec := s.fw.settings.minSec }, minSec := s.fw.settings.minSec,
                       revoked := s.fw.idRevoked } ∧ EventSet Reg.pwrStat 1 s t ∧ SameRegs [Reg.pwrStat, Reg.memStat] s t ∧
    t.mem = ((s.storeRead a.read).storeRead b.read).mem ∧
    t = { s with power := t.power, fw := t.fw, regs := t.regs, mem := t.mem }) ∧
  (∀ b s, s.power.phase = .memtest → b < 76 → s.fw.settings.columns = [] → Answers (.memtestEnd [] (some b)) s fun t =>
    t = { s with power := { s.power with phase := .fault, faultPhase := 3, faultDetail := b },
                 mem := { s.mem with user := [], log := [] } } ∧
    t.hubOk = false ∧ t.served .spi = true ∧ t.served .downlink = false ∧ t.served .stake = false) ∧
  (∀ b target s, s.power.phase = .memtest → b < 76 → s.fw.settings.columns = [] → s.spareLeft b = 0 →
    Answers (.memtestEnd [(b, target)] none) s fun t =>
      t.power = { s.power with phase := .fault, faultPhase := 3, faultDetail := b } ∧ t.regs = s.regs) ∧
  (∀ b target s, s.power.phase = .memtest → b < 76 → s.fw.settings.columns = [] → s.spareLeft b ≠ 0 →
    Answers (.memtestEnd [(b, target)] none) s fun t => t.power = { s.power with phase := .stack } ∧
      t.spareLeft b = s.spareLeft b - 1 ∧ (t.bank b).used = (s.bank b).used ∧ (∀ k, k ≠ b → t.bank k = s.bank k) ∧
      t.regs = s.regs) ∧
  (∀ a b c before spares s, (a && b && c) = false → s.power.phase = .stack → Answers (.stackEnd a b c before spares) s fun t =>
    t = { s with power := { s.power with phase := .fault, faultPhase := 4, faultDetail := 0xFF } } ∧ t.hubOk = false ∧
    t.served .spi = true ∧ t.served .downlink = false ∧ t.served .stake = false)

/-- PLL_LOCK marks the PLL locked once FUSE is over (in FAULT, too) and a reference is usable; every enabled uplink that is OFF
starts training at step 0, a disabled one is OFF, an enabled one in training goes on, and nothing else changes. PLL_UNLOCK in lock with a usable reference sets PLL_UNLOCK_EVT, counts the event and goes back to
acquisition. SAMPLING_START, after lock and the end of STACK, begins the running count at 0,
where the Datum stands as it is with N as in effect. -/
def Obligations.PllAndSamplingStart : Prop :=
  (∀ s, s.past .fuse = true → s.power.pllLocked = false → s.refUsable = true → s.reg Reg.lnkUlEn = 0 →
    (∀ n, n < 32 → (s.lane n).st = .off) →
    Answers .pllLock s fun t => t = { s with power := { s.power with pllLocked := true, pllAcq := false } }) ∧
  (∀ s, s.power.pllLocked = true → s.refUsable = true → Answers .pllUnlock s fun t =>
    t.power = { s.power with pllLocked := false, pllAcq := true } ∧ EventSet Reg.pwrStat 3 s t ∧
    bits (t.reg Reg.pwrPllStat) 31 16 = satInc 0xFFFF (bits (s.reg Reg.pwrPllStat) 31 16) ∧
    SameRegs [Reg.pwrStat, Reg.pwrPllStat] s t ∧ t = { s with power := t.power, regs := t.regs }) ∧
  (∀ s, s.power.pllLocked = true → s.past .stack = true → s.time.sampling = false → Answers .samplingStart s fun t =>
    t.time.sampling = true ∧ t.time.xcount = 0 ∧ t.time.orbit = s.time.orbit ∧ t.time.cross = s.time.cross ∧
    t.trig.groupX = 0 ∧ t.time.changes = [⟨0, s.time.orbit, s.time.cross, s.n, true⟩] ∧ t = { s with time := t.time, trig := t.trig }) ∧
  (∀ s, s.past .fuse = true → s.power.pllLocked = false → s.refUsable = true →
    (∀ n, n < 32 → bit (s.reg Reg.lnkUlEn) n = false → (s.lane n).st ≠ .up) → Answers .pllLock s fun t =>
      t.power = { s.power with pllLocked := true, pllAcq := false } ∧
      (∀ n, n < 32 →
        (bit (s.reg Reg.lnkUlEn) n = true → (s.lane n).st = .off → (t.lane n).st = .acquire ∧ (t.lane n).step = 0 ∧
          (t.lane n).job = (s.lane n).job ∧ (t.lane n).downCount = (s.lane n).downCount) ∧
        (bit (s.reg Reg.lnkUlEn) n = true → (s.lane n).st ≠ .off → t.lane n = s.lane n) ∧
        (bit (s.reg Reg.lnkUlEn) n = false → t.lane n = { s.lane n with st := .off, step := 0 })) ∧
      (∀ n, 32 ≤ n → t.lane n = s.lane n) ∧ t = { s with power := t.power, txLanes := t.txLanes }) ∧
  (∀ s : State, s.power.phase = .fault → 2 < s.power.faultPhase → s.past .fuse = true ∧ s.rxEnabled .dla = bit (s.reg Reg.lnkCtl) 0)

/-- A rail out of its tolerance, and not below its fall threshold of 88 %, sets RAIL_LOW_EVT and its measured and lowest voltages;
below it the hub is in power reset. A sag deeper than THR per cent at islands 1 to 46 stretches the island, which counts once and
ends at STRETCH_RESTORE; a shallower one does nothing. A stretch beyond 64 µs sets its event and names the island, and with no
crossing lost changes nothing else; the crossings that a station loses set HIST_LOSS and are held for its GAP records and its
history, whose blocks show the loss (how many are lost comes with the command: log entry 62). TRST_N low holds BYPASS; EXTEST acts
only while RESET_N is low, closes the Brix bypass, and keeps it closed. -/
def Obligations.RailsStretchesAndScan : Prop :=
  (∀ rail mV s, rail < 9 → s.power.phase ≠ .rails → 88 * railNominal rail ≤ 100 * mV → s.railV rail ≠ 0 →
    State.railOk { s with railMv := tabSet 0 s.railMv rail mV } rail = false → Answers (.railLowEvt rail mV) s fun t =>
      EventSet Reg.pwrStat 4 s t ∧ SameRegs [Reg.pwrStat] s t ∧ tabGet 0 t.railMv rail = mV ∧
      tabGet 0 t.railMin rail = min (tabGet 0 s.railMin rail) mV ∧
      t = { s with regs := t.regs, railMv := t.railMv, railMin := t.railMin }) ∧
  (∀ rail mV s, rail < 9 → s.power.phase ≠ .rails → 100 * mV < 88 * railNominal rail →
    Answers (.railLowEvt rail mV) s fun t => t = s.powerReset (BitVec.ofNat 9 (2 ^ rail))) ∧
  (∀ i d s, d ≤ 10 * min 10 (max 2 (bits (s.reg Reg.pwrDroopCfg) 3 0)) → exec (.stretch ⟨i, d⟩) s = .next s) ∧
  (∀ i d s, 1 ≤ i → i ≤ 46 → tabGet 0 s.power.stretched i = 0 →
    10 * min 10 (max 2 (bits (s.reg Reg.pwrDroopCfg) 3 0)) < d → Answers (.stretch ⟨i, d⟩) s fun t =>
    tabGet 0 t.power.stretched i = s.time.now + 1 ∧
    bits (t.reg Reg.topDroopStat) 31 16 = satInc 0xFFFF (bits (s.reg Reg.topDroopStat) 31 16) ∧
    SameRegs [Reg.topDroopStat] s t ∧ t = { s with power := { s.power with stretched := t.power.stretched }, regs := t.regs }) ∧
  (∀ i s, tabGet 0 s.power.stretched i ≠ 0 → Answers (.stretchRestore i) s fun t =>
    tabGet 0 t.power.stretched i = 0 ∧ (∀ j, j ≠ i → tabGet 0 t.power.stretched j = tabGet 0 s.power.stretched j) ∧
    t = { s with power := { s.power with stretched := t.power.stretched } }) ∧
  (∀ i x s, tabGet 0 s.power.stretched i ≠ 0 → tabGet 0 s.power.stretched i + s.micros 64 ≤ s.time.now + 1 →
    x ≤ s.time.xcount + 1 → i < 256 → Answers (.longSag i x 0) s fun t => bit (t.reg Reg.topDroopStat) 1 = true ∧
      bits (t.reg Reg.topDroopStat) 15 8 = i ∧ SameRegs [Reg.topDroopStat] s t ∧ t = { s with regs := t.regs }) ∧
  (∀ i x n s, 1 ≤ i → i ≤ 32 → n ≠ 0 → tabGet 0 s.power.stretched i ≠ 0 →
    tabGet 0 s.power.stretched i + s.micros 64 ≤ s.time.now + 1 → x + n ≤ s.time.xcount + 1 →
    Answers (.longSag i x n) s fun t => bit (t.reg Reg.topDroopStat) 1 = true ∧ bit (t.reg Reg.topDroopStat) 2 = true ∧
      bits (t.reg Reg.topDroopStat) 15 8 = i ∧ SameRegs [Reg.topDroopStat] s t ∧
      t.trig = { s.trig with sagLost := (i - 1, x, n) :: s.trig.sagLost } ∧ t.hist.lost = (i - 1, x, n) :: s.hist.lost ∧
      t.hist.blocks.map Prod.fst = s.hist.blocks.map Prod.fst ∧
      (∀ q ∈ t.hist.blocks, ∀ b, q.2 = some b → q.1 % 32 = i - 1 → x < 256 * (q.1 / 32) + 256 → 256 * (q.1 / 32) < x + n →
        b.loss = true) ∧
      t = { s with regs := t.regs, trig := t.trig, hist := t.hist }) ∧
  (∀ x n s, n ≠ 0 → tabGet 0 s.power.stretched 35 ≠ 0 →
    tabGet 0 s.power.stretched 35 + s.micros 64 ≤ s.time.now + 1 → x + n ≤ s.time.xcount + 1 →
    Answers (.longSag 35 x n) s fun t => bit (t.reg Reg.topDroopStat) 2 = true ∧ t.trig = s.trig ∧
      (∀ st y, st < 32 → x ≤ y → y < x + n → t.lostAt st y = true) ∧ t = { s with regs := t.regs, hist := t.hist }) ∧
  (∀ ins r s, exec (.boundaryScanInstruction ins r true) s = .next { s with scan := .bypass }) ∧
  (∀ s, exec (.boundaryScanInstruction .extest false false) s = .next { s with scan := .bypass }) ∧
  (∀ s, exec (.boundaryScanInstruction .extest true false) s =
    .next { s with scan := .extest, brix := { s.brix with bypassOpen := false } }) ∧
  (∀ s, s.scan = .extest → exec .bypassOpen s = .next s)
/-- A fast command that is next in R49's order in the present crossing runs and does not act again. SYNC_X makes the Datum
the value of TIME_DATUM_LOAD and, unless in FREE (log entry 95), tests the pending stakes: a target less than 8 crossings ahead, counted
with N as at acceptance, is past and completes LATE or runs in the next crossing, one beyond 2^40 completes TOO_FAR, and the others
stay (log entry 12), while the running count, Plumb, Meridian, Staff, N and G and the waiting orbit values keep what they were; RESYNC waits for the next K28.1; ORBIT_ACT arms the staged orbit
values, and at crossing 0 lets those that an earlier one armed take effect first; CALPULSE fires every armed source, and no other, when CALPULSE_EN = 1; ACCEPT queues the crossing TRG_ACC_LAT before
this one under the next sequence number when ACC_EN = 1 and the queue has room; with the queue full it takes the next sequence
number all the same, becomes a GAP record of class 2 with REASON 1 at once (one that the share does not take waits), is counted
and sets QUEUE_FULL_EVT; it sets its event when ACC_EN = 0. Nothing else changes. -/
def Obligations.FastCommandsAct : Prop :=
  (∀ s, s.fcNext fcSyncX = true → Answers .syncX s fun t =>
    t.time.orbit = s.reg64 Reg.timeDatumLoad / 2 ^ 20 % 2 ^ 44 ∧ t.time.cross = s.reg64 Reg.timeDatumLoad % 2 ^ 13 ∧
    t.fcActs fcSyncX = false ∧ t.tieFlags = s.tieFlags ||| 1 ∧ SameRegs [Reg.timeStakeStat] s t ∧
    t.time = { s.time with orbit := t.time.orbit, cross := t.time.cross, fcQueue := t.time.fcQueue, changes := t.time.changes } ∧
    (∃ c, t.time.changes.head? = some c ∧ c.x = s.time.xcount ∧ c.orbit = t.time.orbit ∧ c.cross = t.time.cross) ∧
    (s.stakes = [] → t = { s with time := t.time, dcTest := t.dcTest, tieFlags := t.tieFlags }) ∧
    t = { s with time := t.time, dcTest := t.dcTest, tieFlags := t.tieFlags, stakes := t.stakes, fw := t.fw,
                 ctl := t.ctl, regs := t.regs, brix := { s.brix with arms := t.brix.arms, armsGone := t.brix.armsGone } } ∧
    (s.ref.free = true → t.stakes = s.stakes)) ∧
  (∀ s, s.fcNext fcResync = true → Answers .resync s fun t => t.fcActs fcResync = false ∧ t.time.resyncWait = true ∧
    t = { s with time := { s.time with fcQueue := t.time.fcQueue, resyncWait := true } }) ∧
  (∀ s, s.fcNext fcOrbitAct = true → Answers .orbitAct s fun t => t.fcActs fcOrbitAct = false ∧
    t.time.orbitArm = some s.time.now ∧ (s.time.cross ≠ 0 → t.n = s.n ∧ t.g = s.g) ∧
    (s.time.cross = 0 → t.n = s.applyOrbit.n ∧ t.g = s.applyOrbit.g) ∧
    t = { s with time := { s.time with fcQueue := t.time.fcQueue, orbitArm := t.time.orbitArm, orbitN := t.time.orbitN,
                                       orbitG := t.time.orbitG, changes := t.time.changes } }) ∧
  (∀ s, s.fcNext fcCalpulse = true → Answers .calpulse s fun t => t.fcActs fcCalpulse = false ∧
    t.trig.calpulses = (s.time.xcount :: s.trig.calpulses).take 64 ∧
    (∀ i, i < 4 → t.src i =
      if bit (s.reg Reg.feCtl) 0 && bit (s.reg (Reg.feInjSet i)) 16 then
        (s.src i).fire s.time.xcount (injAmp (s.reg (Reg.feInjSet i))) (bits (s.reg (Reg.feInjSet i)) 31 24)
          (s.fld (Reg.feInjTim i) 11 0)
      else s.src i) ∧
    t = { s with time := { s.time with fcQueue := t.time.fcQueue }, trig := { s.trig with calpulses := t.trig.calpulses },
                 sources := t.sources }) ∧
  (∀ s, s.fcNext fcAccept = true → bit (s.reg Reg.trgCtl) 0 = true → s.trig.accQueue.length < 256 →
    Answers .accept s fun t => t.fcActs fcAccept = false ∧ t.trig.accSeqLast = s.trig.accSeqNext ∧
      t.trig.accSeqNext = (s.trig.accSeqNext + 1) % 2 ^ 32 ∧ t.trig.dt.acc = (s.trig.dt.acc + 1) % 2 ^ 64 ∧
      (∃ a : Sys2Proof.Machine.Accept, t.trig.accQueue = s.trig.accQueue ++ [a] ∧ a.seq = s.trig.accSeqNext ∧
        a.a = (s.time.xcount : Int) - bits (s.reg Reg.trgAccLat) 19 0 ∧ a.self = false ∧ a.pre = bits s.winNow 3 0 ∧
        a.post = bits s.winNow 8 4 ∧ a.mode = bits s.winNow 10 9 ∧ a.chsel = bits s.winNow 13 12) ∧
      t = { s with time := { s.time with fcQueue := t.time.fcQueue }, trig := t.trig }) ∧
  (∀ s, s.fcNext fcAccept = true → bit (s.reg Reg.trgCtl) 0 = false → Answers .accept s fun t =>
    t.fcActs fcAccept = false ∧ EventSet Reg.trgStat 12 s t ∧ SameRegs [Reg.trgStat] s t ∧
    t = { s with time := { s.time with fcQueue := t.time.fcQueue }, regs := t.regs }) ∧
  (∀ s, s.fcNext fcSyncX = true → s.ref.free = false → (s.stakes.map Stake.sid).Nodup → Answers .syncX s fun t =>
    ∀ k ∈ s.stakes, ∀ d, d = t.distanceN k.n k.orbit k.x →
      (k.lateAt.isSome = true ∨ k.held = true ∨ (8 ≤ d ∧ d ≤ 2 ^ 40) → k ∈ t.stakes) ∧
      (k.lateAt = none → k.held = false → d < 8 → k.runLate = true →
        { k with lateAt := some (.at_ (s.time.now + 1)) } ∈ t.stakes) ∧
      (k.lateAt = none → k.held = false → d < 8 → k.runLate = false →
        k ∉ t.stakes ∧ ∃ c ∈ t.outcomes, c.ring = k.ring ∧ c.sq = k.sq ∧ c.tag = k.tag ∧ c.status = BitVec.ofNat 8 Status.late) ∧
      (k.lateAt = none → k.held = false → 2 ^ 40 < d →
        k ∉ t.stakes ∧ ∃ c ∈ t.outcomes, c.ring = k.ring ∧ c.sq = k.sq ∧ c.tag = k.tag ∧
          c.status = BitVec.ofNat 8 Status.tooFar)) ∧
  (∀ s, s.fcNext fcAccept = true → bit (s.reg Reg.trgCtl) 0 = true → 256 ≤ s.trig.accQueue.length →
    Answers .accept s fun t => t.fcActs fcAccept = false ∧ t.trig.accQueue = s.trig.accQueue ∧
      t.trig.accSeqLast = s.trig.accSeqNext ∧ t.trig.accSeqNext = (s.trig.accSeqNext + 1) % 2 ^ 32 ∧
      t.trig.accGapCount = satInc 0xFFFF s.trig.accGapCount ∧
      t.trig.dt = { s.trig.dt with acc := (s.trig.dt.acc + 1) % 2 ^ 64, accGap := (s.trig.dt.accGap + 1) % 2 ^ 64 } ∧
      bit (t.reg Reg.trgStat) 13 = true ∧
      (∃ b ∈ (t.cls 2).queue.map Packet.payload ++ t.spool.waiting.map Waiting.bytes, b.length = 32 ∧ le b 0 2 = 0xF2A6 ∧
        byteAt b 2 = 2 ∧ le b 4 4 = s.trig.accSeqNext % 2 ^ 32 ∧ byteAt b 19 = 1) ∧
      t = { s with time := { s.time with fcQueue := t.time.fcQueue }, trig := t.trig, spool := t.spool, mem := t.mem, regs := t.regs })

/-- N and G in effect are what TIME_ORBIT_CUR reads. A write to TIME_ORBIT_NEXT, on a path that serves and with the page
unlocked, stages N in [12:0] and G in [25:16] when N is 1024 to 8191, G is 32 to 1023 and G ≤ N − 512, and otherwise leaves
the staged values unchanged; no other register changes. ORBIT_ACT arms them with its crossing; at crossing 0 of an orbit that
begins in a later crossing they take effect and the arm ends, and at crossing 0 of the crossing in which it acted, or with no
arm, N and G stay. -/
def Obligations.OrbitValuesAreStagedAndApplied : Prop :=
  (∀ (s : State) p, (s.readReg p Reg.timeOrbitCur).1 = some (place s.n 0 ||| place s.g 16)) ∧
  (∀ s p v, s.served p = true → s.pageLocked 1 = false →
    (1024 ≤ bits v 12 0 ∧ bits v 12 0 ≤ 8191 ∧ 32 ≤ bits v 25 16 ∧ bits v 25 16 ≤ 1023 ∧
      (bits v 25 16 : Int) ≤ (bits v 12 0 : Int) - 512) →
    Answers (.timeOrbitNextWrite p v) s fun t => bits (t.reg Reg.timeOrbitNext) 12 0 = bits v 12 0 ∧
      bits (t.reg Reg.timeOrbitNext) 25 16 = bits v 25 16 ∧ SameRegs [Reg.timeOrbitNext] s t ∧ t.time = s.time) ∧
  (∀ s p v, s.served p = true → s.pageLocked 1 = false →
    ¬ (1024 ≤ bits v 12 0 ∧ bits v 12 0 ≤ 8191 ∧ 32 ≤ bits v 25 16 ∧ bits v 25 16 ≤ 1023 ∧
      (bits v 25 16 : Int) ≤ (bits v 12 0 : Int) - 512) →
    Answers (.timeOrbitNextWrite p v) s fun t => SameRegs [] s t ∧ t.time = s.time) ∧
  (∀ s, s.fcNext fcOrbitAct = true → Answers .orbitAct s fun t => t.time.orbitArm = some s.time.now) ∧
  (∀ (s : State) a, s.time.orbitArm = some a → a < s.time.now →
    s.applyOrbit.n = bits (s.reg Reg.timeOrbitNext) 12 0 ∧ s.applyOrbit.g = bits (s.reg Reg.timeOrbitNext) 25 16 ∧
      s.applyOrbit.time.orbitArm = none) ∧
  (∀ s : State, (∀ a, s.time.orbitArm = some a → s.time.now ≤ a) → s.applyOrbit = s) ∧
  (∀ temps cm s, s.past .fuse = true → s.time.cross = 0 → s.time.orbitStartAt ≠ some s.time.now →
    Answers (.orbitStart temps cm) s fun t => t.n = s.applyOrbit.n ∧ t.g = s.applyOrbit.g)

/-- At crossing 0, once FUSE is over and once per crossing, ORBIT_START counts the orbit, keeps a new 48-byte tie record in
front of the earlier ones (64 at most) and takes its sequence number. The record holds the orbit, Meridian, the time base and
QUALITY, Plumb, the last error, φ and round trip, the N in effect from now on, the flags and the sequence number, as Table 2.5
places them. Each station that is read takes the last temperature read for it, and the others keep theirs; the user area of CTRL SRAM,
lanes' training, the history store and PIPE are left alone. -/
def Obligations.OrbitStartFormsATieRecord : Prop :=
  ∀ s temps cm, s.past .fuse = true → s.time.cross = 0 → s.time.orbitStartAt ≠ some s.time.now →
    Answers (.orbitStart temps cm) s fun t => t.time.orbitNo = s.time.orbitNo + 1 ∧
      t.time.orbitStartAt = some s.time.now ∧ t.tseq = (s.tseq + 1) % 256 ∧
      (∃ r : TieRec, t.ties = (r :: s.ties).take 64 ∧ r.bytes.length = 48 ∧
        r.bytes.take 8 = leBytes 8 (s.time.orbit % 2 ^ 44) ∧ bytesAt r.bytes 8 8 = leBytes 8 s.time.merS ∧
        bytesAt r.bytes 16 5 = leBytes 5 s.time.merPs ∧ byteAt r.bytes 21 = 1 ∧ byteAt r.bytes 22 = s.quality % 256 ∧
        byteAt r.bytes 23 = 0 ∧ bytesAt r.bytes 24 8 = leBytes 8 s.time.plumb ∧
        le r.bytes 32 4 = toTwos 32 s.servo.err ∧ le r.bytes 36 4 = toTwos 32 s.servo.phi ∧
        le r.bytes 40 4 = toTwos 32 s.servo.rtt ∧ le r.bytes 44 2 = t.n % 2 ^ 16 ∧
        byteAt r.bytes 46 = (s.tieFlags.toNat + (if s.ref.holdover then 8 else 0) + (if s.ref.onFallback then 16 else 0)) % 256 ∧
        byteAt r.bytes 47 = s.tseq % 256) ∧
      (∀ st, st < 32 → (t.stn st).theta =
        match temps.reverse.find? fun q => q.1 == st with
        | some q => q.2.toInt
        | none => (s.stn st).theta) ∧
      t.mem.user = s.mem.user ∧ t.txLanes = s.txLanes ∧ t.hist = s.hist ∧ t.pipe = s.pipe

/-- An exchange frame that is due goes out with t2, t3 and the orbit of its K28.1 and is kept under its XSEQ, which advances.
A report that answers no frame of the last 16 exchanges, or whose round trip is off in LOCKED, is counted in STALE_COUNT and
sets REPORT_STALE, and the servo stays as it is. An accepted one sets the error λ − PHASE_TGT and the round trip from its
stamps, ends HOLD_PHASE and the run of exchanges without a report, and the frames kept stay, for a second report of the same
exchange is as good. After 64 such exchanges HOLD_PHASE keeps φ and e_prev and leaves LOCKED. How differences of
stamps are rounded, and UNLOCKED_EVT on leaving LOCKED here too, are the model's readings (log entries 8 and 63). -/
def Obligations.ExchangeAndServo : Prop :=
  (∀ (frac : BitVec 24) s t2 o, s.exchangeDue = true → s.servo.k281 = some (t2, o) →
    Answers (.exchangeFrame frac) s fun t => t.servo.xseq = (s.servo.xseq + 1) % 256 ∧ t.servo.frameDue = false ∧
      (∃ f : SentFrame, t.servo.sent = (f :: s.servo.sent).take 16 ∧ f.xseq = s.servo.xseq ∧ f.t2 = t2 ∧
        f.t3 = s.stamp frac.toNat ∧ f.orbit = o) ∧
      (∀ body, body = exchangeBody s.servo.xseq (bits (s.reg Reg.idHubId) 15 0) (s.stamp frac.toNat) t2 o →
        Sent s.xchLane (.exchange (framedChars k23_7 (body ++ leBytes 2 (crc16 body).toNat))) s t) ∧
      t = { s with servo := { s.servo with xseq := t.servo.xseq, frameDue := false, sent := t.servo.sent }, tx := t.tx,
                   txLanes := t.txLanes, fresh := t.fresh }) ∧
  (∀ b s, s.past .links = true →
    (s.reportFor (byteAt b 0) = none ∨
      ∃ f, s.reportFor (byteAt b 0) = some f ∧ s.rttOutlier f (le b 16 8) (le b 24 8) = true) →
    Answers (.timeReport b) s fun t => bit (t.reg Reg.timeStat) 11 = true ∧
      bits (t.reg Reg.timeStat) 31 16 = satInc 0xFFFF (bits (s.reg Reg.timeStat) 31 16) ∧
      SameRegs [Reg.timeStat] s t ∧ t = { s with regs := t.regs, tieFlags := s.tieFlags ||| 0x20 }) ∧
  (∀ b s f, s.past .links = true → s.reportFor (byteAt b 0) = some f →
    s.rttOutlier f (le b 16 8) (le b 24 8) = false → adoptOf b f = none →
    Answers (.timeReport b) s fun t =>
      t.servo.rtt = roundHalfIn (s.stampSpan f.t2 (le b 16 8 % 2 ^ 64) + s.stampSpan (le b 24 8 % 2 ^ 64) f.t3) (2 ^ 44) ∧
      t.servo.err = roundHalfIn (s.stampSpan (le b 24 8 % 2 ^ 64) f.t3 - s.stampSpan f.t2 (le b 16 8 % 2 ^ 64) +
        2 ^ 44 * s.asym f.onB - 2 ^ 48 * sext 17 (bits (s.servoReg Reg.timePhaseTgt) 16 0)) (2 ^ 45) ∧
      t.servo.missRun = 0 ∧ t.servo.holdPhase = false ∧
      t.servo.sent = s.servo.sent ∧ t.servo.phi = s.servo.phi ∧ t.time = s.time ∧
      t.stakes = s.stakes ∧ t.mem = s.mem) ∧
  (∀ s, 64 < s.servo.missRun → s.servo.holdPhase = false → Answers .holdPhase s fun t => t.servo.holdPhase = true ∧
    t.servo.locked = false ∧ t.servo.phi = s.servo.phi ∧ t.servo.ePrev = s.servo.ePrev ∧
    (s.servo.locked = true → EventSet Reg.timeStat 10 s t) ∧ (s.servo.locked = false → t.regs = s.regs) ∧
    SameRegs [Reg.timeStat] s t ∧
    t = { s with servo := { s.servo with holdPhase := true, locked := false, lockRun := 0 }, regs := t.regs })

/-- A STAKE that is next to be accepted, with its engine in service, passes the checks and enters the table last, with the
orbit, crossing, action and policy of its body and N as in effect; one that fails a check completes with that check's status,
counted when it is LATE, and the table stays as it is. The status is BAD_DESCRIPTOR for a body that R69 does not admit, the action's own
one for its arguments (UNSUPPORTED for an action that is none of 1 to 8), LATE under REJECT for a target less than 8 crossings ahead
or one that cannot occur (R72), TOO_FAR beyond 2^40 crossings, and NO_SLOT with 64 pending; with none of these the stake is taken. That
reserved bytes of the arguments count, and the order of the tests, are the model's choice (log entries 38 and 93). -/
def Obligations.StakeEntersTheTableOrCompletes : Prop :=
  (∀ ring s f, Accepts s ring f 0x10 → s.engineUp 3 = true →
    (s.takeHead ring f).stakeFails ((s.takeHead ring f).stakeOf ring f) (f.body 10 1) = none →
    Answers (.stake ring) s fun t => (∃ k : Stake, t.stakes = s.stakes ++ [k] ∧ k.ring = ring ∧ k.sq = f.sq ∧
        k.tag = f.tag ∧ k.orbit = f.body 0 8 ∧ k.x = f.body 8 2 ∧ k.n = s.n ∧ k.action = f.body 11 1 ∧
        k.runLate = (f.body 10 1 == 1) ∧ k.args = bytesAt f.bytes 28 36 ∧
        (8 ≤ s.distance k.orbit k.x → s.cannotOccur k = false → k.lateAt = none)) ∧
      t.ctl.committed = s.ctl.committed ∧
      t = { s with stakes := t.stakes, ctl := t.ctl, fw := t.fw, brix := t.brix, tx := t.tx }) ∧
  (∀ ring s f st, Accepts s ring f 0x10 → s.engineUp 3 = true →
    (s.takeHead ring f).stakeFails ((s.takeHead ring f).stakeOf ring f) (f.body 10 1) = some st →
    Answers (.stake ring) s fun t => Finished ring f st s t ∧ SameRegs [Reg.timeStakeStat] s t ∧
      bits (t.reg Reg.timeStakeStat) 31 16 = (if st = Status.late then satInc 0xFFFF (bits (s.reg Reg.timeStakeStat) 31 16)
        else bits (s.reg Reg.timeStakeStat) 31 16) ∧ t = { s with ctl := t.ctl, regs := t.regs }) ∧
  (∀ (s : State) k p, (1 < p ∨ (p = 1 ∧ (k.action = 7 ∨ k.action = 8)) ∨ 8191 < k.x ∨ 2 ^ 44 ≤ k.orbit) →
    s.stakeFails k p = some Status.badDescriptor) ∧
  (∀ (s : State) k p st, p ≤ 1 → (p = 1 → k.action ≠ 7 ∧ k.action ≠ 8) → k.x ≤ 8191 → k.orbit < 2 ^ 44 →
    s.stakeArgs k = some st → s.stakeFails k p = some st) ∧
  (∀ (s : State) k, k.action = 0 ∨ 8 < k.action → s.stakeArgs k = some Status.unsupported) ∧
  (∀ (s : State) k p, p ≤ 1 → (p = 1 → k.action ≠ 7 ∧ k.action ≠ 8) → k.x ≤ 8191 → k.orbit < 2 ^ 44 →
    s.stakeArgs k = none → k.runLate = false → (s.distance k.orbit k.x < 8 ∨ (k.action ≠ 7 ∧ s.cannotOccur k = true)) →
    s.stakeFails k p = some Status.late) ∧
  (∀ (s : State) k p, p ≤ 1 → (p = 1 → k.action ≠ 7 ∧ k.action ≠ 8) → k.x ≤ 8191 → k.orbit < 2 ^ 44 →
    s.stakeArgs k = none → 2 ^ 40 < s.distance k.orbit k.x → s.stakeFails k p = some Status.tooFar) ∧
  (∀ (s : State) k p, p ≤ 1 → (p = 1 → k.action ≠ 7 ∧ k.action ≠ 8) → k.x ≤ 8191 → k.orbit < 2 ^ 44 →
    s.stakeArgs k = none → (k.runLate = true ∨ (8 ≤ s.distance k.orbit k.x ∧ s.cannotOccur k = false)) →
    s.distance k.orbit k.x ≤ 2 ^ 40 → k.action ≠ 7 →
    s.stakeFails k p = if 64 ≤ s.stakes.length then some Status.noSlot else none)

/-- When the first due stake has the command's action, the action runs, the stake leaves the table and completes OK or
RAN_LATE with the Datum and, for LAUNCH_FRAME, the departure stamp. LAUNCH_BUFFER_READ reads the named buffer 128 crossings
before the target and keeps an admitted frame; LAUNCH_FRAME sends it on its lane, completes NOT_FOUND when the lane is not
UP, and keeps the frame for a lane that is still busy (the model's choice, log entry 82) until the lane is free; REG_WRITE writes its pairs in order on the stake path, or completes BAD_DESCRIPTOR and writes none when a page is locked;
INJECT fires the named sources; LOAD_MERIDIAN and LOAD_STAFF load their base (and begin its hidden fraction anew, the model's choice, log entry 94); TRAVERSE_START starts the sequencer now. -/
def Obligations.StakeActionsRun : Prop :=
  (∀ sid s k, s.stakes.find? (fun q => q.sid == sid && q.action == 1 && q.frame.isNone) = some k →
    (k.lateAt.isSome || (s.distance k.orbit k.x ≤ 128 && !s.ref.free)) = true →
    frameOk (s.frameBuffer (byteAt k.args 0)) = true → Answers (.launchBufferRead sid) s fun t =>
      (∀ q ∈ t.stakes, q.sid = k.sid → q.frame = some (s.frameBuffer (byteAt k.args 0))) ∧
      t.stakes.length = s.stakes.length ∧ t = { s with stakes := t.stakes }) ∧
  (∀ (frac : BitVec 24) s k b, s.heldLaunch = none → s.dueStake 0x01 = some k → k.frame = some b →
    s.laneUp (byteAt b 0) = true → (s.lane (byteAt b 0)).job = .idle →
    Answers (.launchFrame frac) s fun t => StakeRan k (s.stamp frac.toNat) s t ∧
      Sent (byteAt b 0) (.launch (launchChars b (s.stamp frac.toNat))) s t ∧
      (t.lane (byteAt b 0)).job = .launch k.ring k.sq ∧
      SameRegs [Reg.timeStakeStat] s t ∧ t.mem = s.mem ∧ t.time = s.time ∧ t.spool = s.spool) ∧
  (∀ (frac : BitVec 24) s k b, s.heldLaunch = none → s.dueStake 0x01 = some k → k.frame = some b →
    s.laneUp (byteAt b 0) = true → (s.lane (byteAt b 0)).job ≠ .idle →
    Answers (.launchFrame frac) s fun t => (∀ q ∈ t.stakes, q.sid = k.sid → q.held = true ∧ q.frame = some b) ∧
      t.stakes.length = s.stakes.length ∧ t = { s with stakes := t.stakes }) ∧
  (∀ (frac : BitVec 24) s k b, s.heldLaunch = some k → k.frame = some b → s.laneUp (byteAt b 0) = true →
    Answers (.launchFrame frac) s fun t => StakeRan k (s.stamp frac.toNat) s t ∧
      Sent (byteAt b 0) (.launch (launchChars b (s.stamp frac.toNat))) s t) ∧
  (∀ (frac : BitVec 24) s k b, s.heldLaunch = none → s.dueStake 0x01 = some k → k.frame = some b →
    s.laneUp (byteAt b 0) = false →
    Answers (.launchFrame frac) s fun t => StakeEnded k Status.notFound s t ∧ SameRegs [] s t ∧ t.tx = s.tx ∧
      t.txLanes = s.txLanes) ∧
  (∀ s k, s.dueStake 0x02 = some k → (writePairs k.args).any (fun p => s.pageLocked (p.1 / 0x1000)) = false →
    Answers .regWrite s fun t => ∃ u, u = State.writeStakePairs { s with stakePath := .init } (writePairs k.args) ∧
      StakeRan k 0 u t ∧ t.stakePath = .init ∧ SameRegs [Reg.timeStakeStat] u t ∧ t.time = u.time ∧ t.mem = u.mem ∧
      t.trig = u.trig ∧ t.hist = u.hist ∧ t.spool = u.spool) ∧
  (∀ s k, s.dueStake 0x02 = some k → (writePairs k.args).any (fun p => s.pageLocked (p.1 / 0x1000)) = true →
    Answers .regWrite s fun t => StakeEnded k Status.badDescriptor s t ∧ SameRegs [] s t ∧ t.mem = s.mem ∧
      t.time = s.time) ∧
  (∀ s k, s.dueStake 0x03 = some k → Answers .inject s fun t => StakeRan k 0 s t ∧
    (∀ i, i < 4 → Nat.testBit (byteAt k.args 0) i = true →
      bits (t.reg (Reg.feInjSet i)) 15 0 = le k.args (4 + 2 * i) 2 ∧ (t.src i).firedAt = s.time.xcount ∧
      (t.src i).out = injAmp (t.reg (Reg.feInjSet i)) ∧ (t.src i).width = byteAt k.args (20 + i)) ∧
    (∀ i, i < 4 → Nat.testBit (byteAt k.args 0) i = false → t.src i = s.src i) ∧
    SameRegs ([Reg.timeStakeStat] ++ (upto 0 4).map Reg.feInjSet ++ (upto 0 4).map Reg.feInjTim) s t ∧
    t.time = s.time ∧ t.mem = s.mem ∧ t.tx = s.tx) ∧
  (∀ s k, s.dueStake 0x04 = some k → Answers .loadMeridian s fun t => StakeRan k 0 s t ∧
    t.time.merS = le k.args 0 8 ∧ (le k.args 8 8 < 10 ^ 12 → t.time.merPs = le k.args 8 8) ∧ t.epochSet = true ∧
    t.tieFlags = s.tieFlags ||| 4 ∧ SameRegs [Reg.timeStat, Reg.timeStakeStat] s t ∧ t.time.orbit = s.time.orbit ∧
    t.time.cross = s.time.cross ∧ t.mem = s.mem) ∧
  (∀ s k, s.dueStake 0x05 = some k → Answers .loadStaff s fun t => StakeRan k 0 s t ∧
    t.time = { s.time with staff := le k.args 0 8, staffFrac := 0 } ∧ SameRegs [Reg.timeStakeStat] s t ∧ t.mem = s.mem) ∧
  (∀ s k, s.dueStake 0x06 = some k → Answers .traverseStart s fun t => StakeRan k 0 s t ∧ t.trig.trv.run = true ∧
    t.trig.trv.state = byteAt k.args 0 % 64 ∧ t.trig.trv.entered = s.time.now ∧ t.trig.trv.counters = [0, 0, 0, 0] ∧
    SameRegs [Reg.timeStakeStat] s t ∧ t.time = s.time ∧ t.mem = s.mem)

/-- At crossing N − G, once FUSE is over, after this crossing's fast commands and stakes and once per crossing, a servo move
that is due is applied and is gone, and one that is not due stays, in its place. An adoption that is due adds its orbits to the Datum. φ takes the
value of the last move due, wrapped into [−T/2, T/2), and the crossings of the moves due and of the wrap go to the Datum. With no move and no adoption pending φ and the Datum stay as they are. The user area of
CTRL SRAM, the containers in PIPE and the history store are left alone, and with the bypass closed the transmit lanes too. -/
def Obligations.GapStartAppliesTheServo : Prop :=
  ∀ s, s.past .fuse = true → s.atGap = true → s.time.gapStartAt ≠ some s.time.now → s.dueStakes = [] →
    (s.time.fcQueue.any fun e => e.act == s.time.now && 8 ≤ e.fc.toNat) = false → s.offlineOverdue = false →
    Answers .gapStart s fun t => t.time.gapStartAt = some s.time.now ∧
      t.servo.moves = s.servo.moves.filter (fun m => decide (s.time.now < m.from_)) ∧
      (s.servo.moves = [] → s.servo.adopt = none → t.servo.phi = s.servo.phi ∧ t.time.orbit = s.time.orbit ∧
        t.time.cross = s.time.cross) ∧
      (∀ q, s.servo.adopt = some q → q.1 ≤ s.time.now → t.servo.adopt = none) ∧
      (OrbitWf s → ∀ o, o = (match s.servo.adopt with
          | some (a, d) => if a ≤ s.time.now then s.time.orbit + d else s.time.orbit
          | none => s.time.orbit) % 2 ^ 44 →
        ∀ due, due = s.servo.moves.filter (fun m => decide (m.from_ ≤ s.time.now)) →
          (due = [] → t.servo.phi = s.servo.phi ∧ t.time.orbit % 2 ^ 44 = o ∧ t.time.cross = s.time.cross) ∧
          (∀ m, due.getLast? = some m → ∀ lin, lin = (o : Int) * s.n + s.time.cross + (wrapPhi s.tServo m.phiFine).2 +
              (due.map PhaseMove.add).sum →
            t.servo.phi = roundHalfIn (wrapPhi s.tServo m.phiFine).1 (2 ^ 48) ∧
            t.time.orbit % 2 ^ 44 = toTwos 44 (lin / s.n) ∧ (t.time.cross : Int) = lin % s.n)) ∧
      t.mem.user = s.mem.user ∧ t.pipe = s.pipe ∧ t.hist = s.hist ∧ (s.brix.bypassOpen = false → t.txLanes = s.txLanes)

/-- At crossing N − G, once FUSE is over, once per crossing, with no fast command or stake of the crossing left to run and no
offline phase left to end, GAP_START answers a next state. Once sampling runs (16 R456), every channel whose FE_CH value has been staged for 8
crossings or more has that value in effect and nothing staged. Every engine in service has written its checkpoint to the
slot that was not the newer one, and the crossing counts as begun. -/
def Obligations.GapStartCompletes : Prop :=
  ∀ s : State, s.past .fuse = true → s.atGap = true → s.time.gapStartAt ≠ some s.time.now → s.dueStakes = [] →
    (s.time.fcQueue.any fun e => e.act == s.time.now && 8 ≤ e.fc.toNat) = false → s.offlineOverdue = false →
    ∃ t, exec .gapStart s = .next t ∧ t.time.gapStartAt = some s.time.now ∧
      (∀ c a, s.time.sampling = true → (s.chan c).feAt = some a → a + 8 ≤ s.time.now →
        t.fe c = s.reg (Reg.feCh c) ∧ (t.chan c).feAt = none) ∧
      (∀ k, k < 8 → (s.engine k).running = true → (s.engine k).restarting = false →
        t.engine k = (s.engine k).checkpoint ∧
        (t.engine k).ckptNew = (if (s.engine k).ckptNew = 0 then 1 else 0) ∧ (t.engine k).restarting = false)
/-- The next sample of a channel in a sampled crossing takes number 4x + k, while no DC test waits for its last samples and no
application of filter settings is due first. For
an enabled channel with a converter, its container holds the gain in use (the forced one, else the range decision's, ×1 for
the first sample) and the code OFFSET + round(v / LSB_g), limited to 0 to 4095, with the converter's departure; for a
disabled channel it is 0xC000 with value 0. The container stands in PIPE at its crossing, channel and k, and only this
channel, its station and slices, and the clip and saturation events may change. What the operands stand for, and halves rounded
away from zero in the code, are the model's choice (log entry 89). -/
def Obligations.SamplesBecomeContainers : Prop :=
  (∀ ch k (i : SampleIn) s, ch < 512 → k < 4 → s.time.sampling = true →
    (∀ v, (s.chan ch).hist.head? = some v → v.n < 4 * s.time.xcount + k) →
    (s.time.cross + s.g = s.n → s.time.gapStartAt = some s.time.now) →
    (s.time.cross = 0 → s.time.orbitStartAt = some s.time.now) → s.dcTest.held = none → s.chEn ch = true →
    s.filterDue (ch / 16) = false → s.lost (ch / 16) (2 * (ch % 16) + k % 2) = false →
    Answers (.sampleContainer ch k i.v i.la64 i.la8 i.dev i.selfErr (i.dev2, i.selfErr2)) s fun t => ∃ v : Sample,
      (t.chan ch).hist.head? = some v ∧ v.n = 4 * s.time.xcount + k ∧
      v.code = sliceCode (feOffset (s.fe ch)) i.v (t.chan ch).gain i.dev ∧
      (i.dev = 0 → (v.code : Int) = clampI 0 4095 ((feOffset (s.fe ch) : Int) +
        roundHalfOut (i.v * 262144) (2000000000 * (t.chan ch).gain.lsbs))) ∧
      v.range = (t.chan ch).gain.code ∧
      (t.chan ch).gain = (forcedGain (bits (s.fe ch) 5 4)).getD
        (if (s.chan ch).started then (s.chan ch).nextGain else .g1) ∧
      tabGet 0 t.pipe (pipeKey s.time.xcount ch k) = v.cont ∧ (∀ c, c ≠ ch → t.chan c = s.chan c) ∧
      SameRegs [regKey Reg.stnStat (ch / 16), Reg.feClipCount, Reg.feStat] s t ∧
      t = { s with chans := t.chans, slices := t.slices, stations := t.stations, pipe := t.pipe, regs := t.regs }) ∧
  (∀ ch k (i : SampleIn) s, ch < 512 → k < 4 → s.time.sampling = true →
    (∀ v, (s.chan ch).hist.head? = some v → v.n < 4 * s.time.xcount + k) →
    (s.time.cross + s.g = s.n → s.time.gapStartAt = some s.time.now) →
    (s.time.cross = 0 → s.time.orbitStartAt = some s.time.now) → s.dcTest.held = none → s.chEn ch = false →
    s.filterDue (ch / 16) = false → Answers (.sampleContainer ch k i.v i.la64 i.la8 i.dev i.selfErr (i.dev2, i.selfErr2)) s fun t => ∃ v : Sample,
      (t.chan ch).hist.head? = some v ∧ v.n = 4 * s.time.xcount + k ∧ v.cont = 0xC000 ∧ v.m = 0 ∧
      tabGet 0 t.pipe (pipeKey s.time.xcount ch k) = 0xC000 ∧ (∀ c, c ≠ ch → t.chan c = s.chan c) ∧
      SameRegs [regKey Reg.stnStat (ch / 16)] s t ∧
      t = { s with chans := t.chans, slices := t.slices, pipe := t.pipe, regs := t.regs })

/-- A write to FE_CHc is taken by its register, stays out of effect and is stamped with its crossing. DC_TEST_START at
crossing N − 16 with TEST_EN clears every channel's sums and turns the current on; DC_TEST_CURRENT_OFF at N − 8 turns it off.
WIDTH crossings after it fired a source returns to zero. Each changes nothing else. -/
def Obligations.FrontEndSettingsAndSources : Prop :=
  (∀ p ch v s, Reaches s p (Reg.feCh (ch % 512)) → Answers (.feChWrite p ch v) s fun t =>
    Took (Reg.feCh (ch % 512)) (Reg.feCh (ch % 512)) v s t ∧ (t.chan (ch % 512)).feAt = some s.time.now ∧
    (∀ c, t.fe c = s.fe c) ∧ (∀ c, c ≠ ch % 512 → t.chan c = s.chan c) ∧ SameRegs [Reg.feCh (ch % 512)] s t ∧
    t = State.withPaths { s with chans := t.chans } t) ∧
  (∀ s, s.time.sampling = true → s.time.cross + 16 = s.n → bit (s.reg Reg.feTestCtl) 0 = true →
    s.time.testOnAt ≠ some s.time.now → Answers .dcTestStart s fun t =>
      t.dcTest = { s.dcTest with begun := true, current := true, startX := s.time.xcount } ∧
      (∀ c, (t.chan c).sumOn = 0 ∧ (t.chan c).sumOff = 0 ∧ (t.chan c).dcClip = false) ∧
      t = { s with chans := t.chans, dcTest := t.dcTest, time := { s.time with testOnAt := some s.time.now } }) ∧
  (∀ s, s.time.cross + 8 = s.n → s.dcTest.begun = true → s.dcTest.current = true → Answers .dcTestCurrentOff s fun t =>
    t = { s with dcTest := { s.dcTest with current := false }, time := { s.time with testOffAt := some s.time.now } }) ∧
  (∀ i s, i < 4 → (s.src i).out ≠ 0 → (s.src i).width ≠ 0 → s.time.xcount = (s.src i).firedAt + (s.src i).width →
    Answers (.injectionReturn i) s fun t => (t.src i).out = 0 ∧
      (t.src i).lastOn = some (if (s.src i).delay = 0 then s.time.xcount - 1 else s.time.xcount) ∧
      (∀ j, j ≠ i → t.src j = s.src j) ∧ t = { s with sources := t.sources })

/-- The end of an offline phase whose levels fit loads the GAIN that makes the slope 1.0 into the slice, which does not
deliver, corrects its measured GAIN by as much and waits for the exit.
A pedestal update computes PED64 from both parity sums, restarts them and moves only the odd slice's OFFS, by minus eight times
the difference of its mean and the even slice's, rounded and limited to 4 steps and to the trim's range. A converter that
meets R132 is marked faulty, counted and recorded with SLICE_FAULT's event. Temperature sets are saved when none has been saved
yet or 600 s have passed, not before, or at once by CAL_CTL.SAVE; CAL_RUN asks for runs in the named stations only, and not in one whose Backsight has stopped. The model's choice:
halves are rounded away from zero in PED64, the OFFS step and the new GAIN (log entry 18), a PED_ORBITS of 0 acts as 1 (90), and sums that are short
when PED_ORBITS orbits end go on (100). -/
def Obligations.BacksightMeasuresAndRecords : Prop :=
  (∀ st sums s b j, (s.stn st).job = some b → st < 32 → sums.length = 16 → b.offlineDone = false → b.discard = false →
    b.phase = .offline ∧ b.step = .visit j ∧ j < 32 ∨ b.phase = .selfCalibrating ∧ b.step = .selfCal ∧ j = 32 →
    b.ends ≤ s.time.xcount → levelsPass sums (s.slice (sliceNo st j)).gain = true →
    Answers (.offlinePhaseEnd st sums) s fun t => (t.stn st).job = some { b with offlineDone := true, phase := .exitWait } ∧
      (t.slice (sliceNo st j)).gain = newGain sums (s.slice (sliceNo st j)).gain ∧
      (t.slice (sliceNo st j)).measGain = (s.slice (sliceNo st j)).measGain +
        (newGain sums (s.slice (sliceNo st j)).gain - (s.slice (sliceNo st j)).gain) ∧
      (∀ n, n ≠ sliceNo st j → t.slice n = s.slice n) ∧ (∀ i, i ≠ st → t.stn i = s.stn i) ∧
      t = { s with stations := t.stations, slices := t.slices, chans := t.chans }) ∧
  (∀ ch s, ch < 512 → (s.chan ch).pedFrom + s.fld1 Reg.calAge 7 0 ≤ s.time.orbitNo → 256 ≤ (s.chan ch).evenCnt →
    256 ≤ (s.chan ch).oddCnt → Answers (.pedestalUpdate ch) s fun t =>
      (t.chan ch).ped64.meas = roundHalfOut (16 * (((s.chan ch).evenSum + (s.chan ch).oddSum : Nat) : Int))
        ((s.chan ch).evenCnt + (s.chan ch).oddCnt) ∧ (t.chan ch).ped64.eff = (s.chan ch).ped64.eff ∧
      (t.chan ch).evenCnt = 0 ∧ (t.chan ch).oddCnt = 0 ∧ (t.chan ch).pedFrom = s.time.orbitNo ∧
      (∀ c, c ≠ ch → t.chan c = s.chan c) ∧ SameRegs [Reg.calStat] s t ∧
      (∀ n, n ≠ sliceNo (ch / 16) (s.oddConverter ch) → t.slice n = s.slice n) ∧
      t = { s with chans := t.chans, slices := t.slices, regs := t.regs }) ∧
  (∀ st j s, st < 32 → j < 33 → s.converterBad st j = true → Answers (.sliceFault st j) s fun t =>
    (t.slice (sliceNo st j)).faulty = true ∧ (t.stn st).failed = min 31 ((s.stn st).failed + 1) ∧
    bit (t.reg Reg.calStat) 4 = true ∧ bits (t.reg Reg.calFaultInfo) 5 0 = j ∧ t.mem = s.mem ∧ t.hist = s.hist ∧
    t.pipe = s.pipe ∧ t.time = s.time ∧ t.spool = s.spool) ∧
  (∀ s, s.backsightUp = true → s.time.saveAt = none → Answers .tempSetsSave s fun t =>
    (∀ c, c < 512 → (s.chan c).sets ≠ [] → (c, CalSave.mk (s.chan c).sets (s.chanMeas c)) ∈ t.fw.settings.sets) ∧
    (∀ c, c < 512 → (s.chan c).sets = [] → ∀ e ∈ t.fw.settings.sets, e.1 ≠ c) ∧ EventSet Reg.calStat 0 s t ∧
    SameRegs [Reg.calStat] s t ∧ t.fw.slots = s.fw.slots ∧ t.time = { s.time with saveAt := some s.time.now } ∧
    t = { s with fw := t.fw, time := t.time, regs := t.regs }) ∧
  (∀ p v s, Reaches s p Reg.calCtl → Answers (.save p v) s fun t => t.time.saveAt = some s.time.now ∧
    (∀ c, c < 512 → (s.chan c).sets ≠ [] → (c, CalSave.mk (s.chan c).sets (s.chanMeas c)) ∈ t.fw.settings.sets) ∧
    bit (t.reg Reg.calStat) 0 = true ∧ SameRegs [Reg.calCtl, Reg.calStat] s t ∧
    t = State.withPaths { s with fw := t.fw, time := t.time } t) ∧
  (∀ p v s, Reaches s p Reg.calRun → Answers (.calRunRequest p v) s fun t =>
    (∀ j, j < 32 → (t.stn j).runReq = ((bit v j && (s.stn j).st != 3) || (s.stn j).runReq)) ∧ SameRegs [Reg.calRun] s t ∧
    t = State.withPaths { s with stations := t.stations } t) ∧
  (∀ ch s d n v, ch < 512 → (s.chan ch).pedFrom + s.fld1 Reg.calAge 7 0 ≤ s.time.orbitNo → 256 ≤ (s.chan ch).evenCnt →
    256 ≤ (s.chan ch).oddCnt →
    d = roundHalfOut (8 * (((s.chan ch).oddSum : Int) * (s.chan ch).evenCnt - ((s.chan ch).evenSum : Int) * (s.chan ch).oddCnt))
      ((s.chan ch).evenCnt * (s.chan ch).oddCnt) →
    n = sliceNo (ch / 16) (s.oddConverter ch) → v = s.slice n → Answers (.pedestalUpdate ch) s fun t =>
      (t.slice n).app 0 = clampI (-256) 255 (v.app 0 - max (-4) (min 4 d)) ∧
      t.slice n = { v with measOffs := (t.slice n).measOffs, limitRun := (t.slice n).limitRun } ∧
      (-256 < (t.slice n).app 0 → (t.slice n).app 0 < 255 → (t.slice n).limitRun = 0)) ∧
  (∀ s a, s.backsightUp = true → s.time.saveAt = some a → 600 * 10 ^ 12 * 2 ^ 24 ≤ (s.time.now - a) * s.period →
    Answers .tempSetsSave s fun t =>
      (∀ c, c < 512 → (s.chan c).sets ≠ [] → (c, CalSave.mk (s.chan c).sets (s.chanMeas c)) ∈ t.fw.settings.sets) ∧
      bit (t.reg Reg.calStat) 0 = true ∧ SameRegs [Reg.calStat] s t ∧ t.time = { s.time with saveAt := some s.time.now } ∧
      t = { s with fw := t.fw, time := t.time, regs := t.regs }) ∧
  (∀ s a, s.time.saveAt = some a → (s.time.now - a) * s.period < 600 * 10 ^ 12 * 2 ^ 24 → exec .tempSetsSave s = .next s)

/-- A write to a staged word of the selected station's page is taken by its register and stays out of effect. APPLY opens an
application with its crossing unless one is open. In crossing N − G + 12 of a gap that begins 8 crossings or more later every
staged word of the station comes into effect, and only then: in another crossing, with no application open or one opened too
late for this gap, nothing is applied. FILTER_OUTPUT delivers the next label once, with E = 0 and t = 0
for a disabled channel. The end of a detector window posts the extremes and starts new ones for all 16 channels; a window that
holds no sample posts 0 (the model's choice, log entry 104). -/
def Obligations.FilterSettingsAndOutputs : Prop :=
  (∀ p off v s a, a = Reg.stnSel + off % 0x1000 → a ∈ stnStagedAddrs → Reaches s p a →
    Answers (.stnStagedWrite p off v) s fun t => Took a (regKey a (s.path p).stnSel) v s t ∧
      SameRegs [regKey a (s.path p).stnSel] s t ∧ t.effRegs = s.effRegs ∧ t = s.withPaths t) ∧
  (∀ p v s, Reaches s p Reg.stnCtl → Answers (.apply p v) s fun t =>
    (t.stn (s.path p).stnSel).applyAt = some ((s.stn (s.path p).stnSel).applyAt.getD s.time.now) ∧
    (∀ j, j ≠ (s.path p).stnSel → t.stn j = s.stn j) ∧ t.effRegs = s.effRegs ∧
    t = State.withPaths { s with stations := t.stations } t) ∧
  (∀ st s a, (s.stn st).applyAt = some a → st < 32 → s.time.sampling = true → s.time.cross = s.n - s.g + 12 →
    a + 20 ≤ s.time.now → Answers (.filterApplication st) s fun t => (t.stn st).applyAt = none ∧
      (t.stn st).fltAt = s.time.xcount ∧ (∀ a, a ∈ stnStagedAddrs → t.eff (regKey a st) = s.reg (regKey a st)) ∧
      (∀ j, j ≠ st → t.stn j = s.stn j) ∧ t = { s with stations := t.stations, effRegs := t.effRegs, chans := t.chans }) ∧
  (∀ ch s x, s.nextLabel ch = some x → ch < 512 → s.time.sampling = true → Answers (.filterOutput ch) s fun t =>
    (∃ o : Output, (t.chan ch).outs = (o :: (s.chan ch).outs).take outDepth ∧ o.x = x ∧ o.suppressed = false ∧
      (o.en = false → o.e = 0 ∧ o.t = 0 ∧ o.flags = 0)) ∧ (∀ c, c ≠ ch → t.chan c = s.chan c) ∧
    SameRegs [regKey Reg.stnStat (ch / 16)] s t ∧ t = { s with chans := t.chans, regs := t.regs }) ∧
  (∀ st s, st < 32 → s.time.sampling = true → (s.time.cross + 1) % 2 ^ s.detWin st = 0 ∨ s.time.cross + 1 = s.n →
    (s.stn st).detAt ≠ some s.time.xcount → Answers (.detectorWindowEnd st) s fun t =>
      (∀ k, k < 16 → (t.chan (16 * st + k)).postMax = (s.chan (16 * st + k)).detMax.getD 0 ∧
        (t.chan (16 * st + k)).postMin = (s.chan (16 * st + k)).detMin.getD 0 ∧
        (t.chan (16 * st + k)).detMax = none ∧ (t.chan (16 * st + k)).detMin = none ∧
        (t.chan (16 * st + k)).detCnt = 0) ∧
      (∀ c, c / 16 ≠ st → t.chan c = s.chan c) ∧ (t.stn st).detAt = some s.time.xcount ∧
      (bit (s.reg Reg.trgProfEn) st = false → t = { s with chans := t.chans, stations := t.stations }) ∧
      t.pipe = s.pipe ∧ t.time = s.time ∧ t.hist = s.hist) ∧
  (∀ st s, ((s.stn st).applyAt = none ∨ s.time.cross ≠ s.n - s.g + 12 ∨ s.time.sampling = false ∨ 32 ≤ st) →
    exec (.filterApplication st) s = .next s) ∧
  (∀ st s a, (s.stn st).applyAt = some a → s.time.now < a + 20 → exec (.filterApplication st) s = .next s)
/-- GROUP_FORMED, 18 crossings after the group's last label and with every output due delivered, takes the next GSEQ, begins
the next group at the label after it and notes its crossing; with STREAM_EN = 0 in effect nothing enters the spool.
PRIMITIVE_FRAME, once per crossing, keeps the 32 tower codes of the label PRIM_LAT crossings ago, all 0 with PRIM_EN = 0, and
sends 40 characters for it on each primitive lane that is UP. -/
def Obligations.GroupsAndPrimitives : Prop :=
  (∀ s : State, s.time.sampling = true → s.groupEnd s.trig.groupX + 18 ≤ s.time.xcount →
    s.outputsIn (s.groupEnd s.trig.groupX + 1) = true → Answers .groupFormed s fun t =>
      t.trig.gseqLast = s.trig.gseqNext ∧ t.trig.gseqNext = (s.trig.gseqNext + 1) % 65536 ∧
      t.trig.groupX = s.groupEnd s.trig.groupX + 1 ∧ t.time = { s.time with groupAt := some s.time.now } ∧
      t.trig.accQueue = s.trig.accQueue ∧ t.pipe = s.pipe ∧ t.hist = s.hist ∧
      (bit ((s.applyHitStage s.trig.groupX).eff Reg.hitCtl) 0 = false → t.spool = s.spool ∧
        t = { s with time := t.time, trig := t.trig, chans := t.chans, stations := t.stations, regs := t.regs,
                     effRegs := t.effRegs })) ∧
  (∀ nr s, s.time.sampling = true → s.primLat ≤ s.time.xcount → s.time.primAt ≠ some s.time.now →
    Answers (.primitiveFrame nr) s fun t => t.time = { s.time with primAt := some s.time.now } ∧
      (∃ codes : List Nat, t.trig.primLast = some (s.time.xcount - s.primLat, codes) ∧ codes.length = 32 ∧
        (bit (s.reg Reg.trgCtl) 1 = false → ∀ c ∈ codes, c = 0)) ∧
      (∃ cs : List LChar, cs.length = 40 ∧ t.tx =
        (if s.laneUp 1 then [Tx.line 1 (s.lane 1).rd (.primitive (s.time.xcount - s.primLat) cs)] else []) ++
        (if s.laneUp 0 then [Tx.line 0 (s.lane 0).rd (.primitive (s.time.xcount - s.primLat) cs)] else []) ++ s.tx) ∧
      (∀ n, 2 ≤ n → t.lane n = s.lane n) ∧ SameRegs [Reg.trgStat] s t ∧
      t = { s with time := t.time, trig := t.trig, regs := t.regs, tx := t.tx, txLanes := t.txLanes })

/-- ACCEPT_SERVICE_START marks the accept that is next as started now, with its fragment, and one that PIPE serves takes this
crossing's cut. FRAGMENT_COMPLETE ends the assembly of the accept named and of no other; its entry is released, at once where the
class-2 share has room for a GAP record, or else stays until the GAP record that waits for the share is placed. A write of TRG_WIN with PRE + POST up to 31 is taken and
leaves the window that accepts use now unchanged, a larger one leaves every register unchanged. MACRO_WAKE ends the wake of
the named macro only; the write to a SPOOL macro that waited for it counts among the waits of its master, once, and so does an accept
whose service waited for the last of EVB 13 to 15. A SPOOL macro that is empty then goes to sleep when its bit is set and it was not
woken for a packet, and EVB 13 to 15 may with ACC_EN = 0. -/
def Obligations.AcceptsAreServed : Prop :=
  (∀ ecc row ue hitUe s acc, s.nextService = some acc → s.time.sampling = true → s.evbAwake = true →
    (s.engine 2).restarting = false → Answers (.acceptServiceStart ecc row ue hitUe) s fun t =>
      (∀ a ∈ t.trig.accQueue, a.seq = acc.seq → a.started = some s.time.now ∧ a.frag.isSome = true ∧
        a.hist = !s.pipeServed acc) ∧ t.trig.accQueue.length = s.trig.accQueue.length ∧
      (s.pipeServed acc = true → t.time = { s.time with cutAt := some s.time.now }) ∧
      (s.pipeServed acc = false → t.time = s.time ∧ t.trig.dt.accHist = (s.trig.dt.accHist + 1) % 2 ^ 64) ∧
      t.spool = s.spool ∧ t.pipe = s.pipe ∧ t.tx = s.tx) ∧
  (∀ seq ue s acc b, s.trig.accQueue.find? (fun a => a.seq == seq) = some acc → acc.frag = some b →
    Answers (.fragmentComplete ⟨seq, ue⟩) s fun t =>
      (t.trig.accQueue = s.trig.accQueue.filter (fun a => a.seq != acc.seq) ∨
        (t.trig.accQueue = s.trig.accQueue.map (fun a => if a.seq == acc.seq then { a with frag := none } else a) ∧
          ∃ w ∈ t.spool.waiting, w.cls = 2 ∧ w.frees = some acc.seq)) ∧
      (s.classWaits 2 = false → (s.cls 2).occOpen + 64 ≤ s.shareBytes 2 →
        t.trig.accQueue = s.trig.accQueue.filter (fun a => a.seq != acc.seq)) ∧ t.time = s.time ∧ t.pipe = s.pipe ∧
      t.hist = s.hist ∧ SameRegs [Reg.hitStat, Reg.splStat, Reg.memStat] s t) ∧
  (∀ p v s, Reaches s p Reg.trgWin → bits v 3 0 + bits v 8 4 ≤ 31 → Answers (.trgWinWrite p v) s fun t =>
    Took Reg.trgWin Reg.trgWin v s t ∧ t.winNow = s.winNow ∧
    t.trig.winNext.getLast? = some (t.reg Reg.trgWin, s.time.now + 8) ∧ SameRegs [Reg.trgWin] s t ∧
    t = State.withPaths { s with trig := t.trig } t) ∧
  (∀ p v s, Reaches s p Reg.trgWin → 31 < bits v 3 0 + bits v 8 4 → Answers (.trgWinWrite p v) s fun t =>
    SameRegs [] s t ∧ t.trig = s.trig) ∧
  (∀ m s, memNat s.mem.waking m = true → Answers (.macroWake m) s fun t =>
    t.mem.waking = delNat s.mem.waking m ∧
    (bit (s.reg Reg.trgCtl) 0 = true → ∀ k, 16 ≤ k → memNat t.mem.asleep k = memNat s.mem.asleep k) ∧
    (m < 16 → bit (s.reg Reg.memSleep) m = true → memNat s.mem.woken m = false → s.macroUnits m = 0 →
      memNat t.mem.asleep m = true) ∧
    (∀ k, k < 16 → bit (s.reg Reg.memSleep) k = false → memNat t.mem.asleep k = memNat s.mem.asleep k) ∧
    (m < 16 → bits (tabGet 0 t.mem.conf 2) 31 12 =
      if s.macroUnits m = 0 then bits (tabGet 0 s.mem.conf 2) 31 12 else satInc 0xFFFFF (bits (tabGet 0 s.mem.conf 2) 31 12)) ∧
    (16 ≤ m → s.time.sampling = true → (s.engine 2).restarting = false → s.nextService.isSome = true →
      (∀ k, k < 3 → memNat s.mem.asleep (16 + k) = false ∧ (16 + k ≠ m → memNat s.mem.waking (16 + k) = false)) →
      bits (tabGet 0 t.mem.conf 1) 31 12 = satInc 0xFFFFF (bits (tabGet 0 s.mem.conf 1) 31 12)) ∧
    (16 ≤ m → s.nextService = none → t.mem.conf = s.mem.conf) ∧
    (∀ k, k ≠ 1 → k ≠ 2 → tabGet 0 t.mem.conf k = tabGet 0 s.mem.conf k) ∧
    t = { s with mem := { s.mem with waking := t.mem.waking, asleep := t.mem.asleep, conf := t.mem.conf }, fresh := t.fresh })

/-- START runs the sequencer in its state from the next crossing with its counters 0; STOP stops it. In a live state whose
condition holds, a step runs the state's action and, but for STOP, enters NEXT_T in the next crossing, where 0xFF stops and a
number above 63 counts modulo 64 (the model's choice, log entry 23): no action leaves the rest alone,
SELF_ACCEPT queues an accept at the event label plus its offset, LOAD_AMP and ADD_AMP write AMP of their source within its
range, COUNT counts up to 65,535, ALERT sets the alert and STOP stops. A timeout enters NEXT_F in its own crossing, in the same way. -/
def Obligations.TraverseSteps : Prop :=
  (∀ p v s, Reaches s p Reg.trgTrvCtl → Answers (.trvStart p v) s fun t => t.trig.trv.run = true ∧
    t.trig.trv.state = bits v 5 0 ∧ t.trig.trv.entered = s.time.now + 1 ∧ t.trig.trv.counters = [0, 0, 0, 0] ∧
    SameRegs [Reg.trgTrvCtl] s t ∧ t = State.withPaths { s with trig := { s.trig with trv := t.trig.trv } } t) ∧
  (∀ p v s, Reaches s p Reg.trgTrvCtl → bit v 8 = false → Answers (.trvStop p v) s fun t =>
    t.trig.trv = { s.trig.trv with run := false } ∧ SameRegs [Reg.trgTrvCtl] s t ∧
    t = State.withPaths { s with trig := { s.trig with trv := t.trig.trv } } t) ∧
  (∀ s l, s.trvCond = some l → s.trvLive = true → s.trvByte s.trig.trv.state 1 = 0 → s.trvByte s.trig.trv.state 2 ≠ 0xFF →
    Answers .traverseStep s fun t => t = { s with trig := { s.trig with trv := { s.trig.trv with
      state := s.trvByte s.trig.trv.state 2 % 64, entered := s.time.now + 1 } } }) ∧
  (∀ s l, s.trvCond = some l → s.trvLive = true → s.trvByte s.trig.trv.state 1 = 1 → s.fcActs fcAccept = false →
    s.trig.accQueue.length < 256 → Answers .selfAccept s fun t =>
      (∃ a : Sys2Proof.Machine.Accept, t.trig.accQueue = s.trig.accQueue ++ [a] ∧ a.self = true ∧
        a.seq = s.trig.accSeqNext ∧ a.a = (l : Int) + sext 16 (s.trvArg s.trig.trv.state 3)) ∧
      t.trig.accSeqNext = (s.trig.accSeqNext + 1) % 2 ^ 32 ∧ TrvEntered (s.trvByte s.trig.trv.state 2) (s.time.now + 1) s t ∧ 
      t = { s with trig := t.trig }) ∧
  (∀ s l, s.trvCond = some l → s.trvLive = true → s.trvByte s.trig.trv.state 1 = 2 → Answers .loadAmp s fun t =>
    let r := Reg.feInjSet (s.trvArg s.trig.trv.state 3 / 65536 % 4)
    bits (t.reg r) 15 0 = s.trvArg s.trig.trv.state 3 % 65536 ∧ bits (t.reg r) 31 16 = bits (s.reg r) 31 16 ∧
      SameRegs [r] s t ∧ TrvEntered (s.trvByte s.trig.trv.state 2) (s.time.now + 1) s t ∧ 
      t = { s with regs := t.regs, trig := { s.trig with trv := t.trig.trv } }) ∧
  (∀ s l, s.trvCond = some l → s.trvLive = true → s.trvByte s.trig.trv.state 1 = 3 → Answers .addAmp s fun t =>
    let r := Reg.feInjSet (s.trvArg s.trig.trv.state 3 / 65536 % 4)
    (bits (t.reg r) 15 0 : Int) = clampI 0 65535 (bits (s.reg r) 15 0 + sext 16 (s.trvArg s.trig.trv.state 3)) ∧
      bits (t.reg r) 31 16 = bits (s.reg r) 31 16 ∧ SameRegs [r] s t ∧
      TrvEntered (s.trvByte s.trig.trv.state 2) (s.time.now + 1) s t ∧ 
      t = { s with regs := t.regs, trig := { s.trig with trv := t.trig.trv } }) ∧
  (∀ s l, s.trvCond = some l → s.trvLive = true → s.trvByte s.trig.trv.state 1 = 4 → s.trig.trv.counters.length = 4 →
    Answers .count s fun t =>
      let k := s.trvArg s.trig.trv.state 3 % 4
      (t.trig.trv.counters.drop k).headD 0 = min 65535 ((s.trig.trv.counters.drop k).headD 0 + 1) ∧
      TrvEntered (s.trvByte s.trig.trv.state 2) (s.time.now + 1) s t ∧ 
      t = { s with trig := { s.trig with trv := t.trig.trv } }) ∧
  (∀ s l, s.trvCond = some l → s.trvLive = true → s.trvByte s.trig.trv.state 1 = 5 → Answers .alert s fun t =>
    t.trig.trv.alert = true ∧ TrvEntered (s.trvByte s.trig.trv.state 2) (s.time.now + 1) s t ∧ 
    t = { s with trig := { s.trig with trv := t.trig.trv } }) ∧
  (∀ s l, s.trvCond = some l → s.trvLive = true → s.trvByte s.trig.trv.state 1 = 6 → Answers .stop s fun t =>
    t = { s with trig := { s.trig with trv := { s.trig.trv with run := false } } }) ∧
  (∀ s, s.trig.trv.run = true → s.trvTimeout s.trig.trv.state ≠ 0 →
    s.trig.trv.entered + s.trvTimeout s.trig.trv.state ≤ s.time.now → s.trvByte s.trig.trv.state 3 ≠ 0xFF →
    Answers .traverseTimeout s fun t => t = { s with trig := { s.trig with trv := { s.trig.trv with
      state := s.trvByte s.trig.trv.state 3 % 64,
      entered := s.trig.trv.entered + s.trvTimeout s.trig.trv.state } } }) ∧
  (∀ s l, s.trvCond = some l → s.trvLive = true → s.trvByte s.trig.trv.state 1 = 0 → s.trvByte s.trig.trv.state 2 = 0xFF →
    Answers .traverseStep s fun t => t = { s with trig := { s.trig with trv := { s.trig.trv with run := false } } }) ∧
  (∀ s, s.trig.trv.run = true → s.trvTimeout s.trig.trv.state ≠ 0 →
    s.trig.trv.entered + s.trvTimeout s.trig.trv.state ≤ s.time.now → s.trvByte s.trig.trv.state 3 = 0xFF →
    Answers .traverseTimeout s fun t => t = { s with trig := { s.trig with trv := { s.trig.trv with run := false } } })

/-- An alignment of an enabled mask starts a test of LEN samples from PRE samples before it, or, while the test before it is
in progress or when a violation ended that test after it, counts as busy; one that comes no later than a violating sample goes first. A violation ends the test, counts, keeps the Datum of its sample, sets its event and, as the
mask's flags say, disables the mask or not and queues a self-accept or not. -/
def Obligations.ContourTestsMasks : Prop :=
  (∀ m s (n0 : Nat), s.alignment m = some n0 → s.maskEn m = true → s.alignsFirst m = true →
    (∀ q, (s.mask m).test = some q → q.first + q.len ≤ (n0 : Int)) → (s.mask m).ended ≤ n0 → Answers (.contourTest m) s fun t =>
      t.mask m = ⟨some ⟨n0, (n0 : Int) - s.maskPre m, s.maskLen m⟩, n0 + 1, (s.mask m).ended⟩ ∧ (∀ k, k ≠ m → t.mask k = s.mask k) ∧
      t.trig.ctr.busy = s.trig.ctr.busy ∧ t = { s with trig := { s.trig with ctr := t.trig.ctr } }) ∧
  (∀ m s (n0 : Nat) q, s.alignment m = some n0 → s.maskEn m = true → s.alignsFirst m = true → (s.mask m).test = some q →
    (n0 : Int) < q.first + q.len → Answers (.contourTest m) s fun t => (t.mask m).test = some q ∧
      t.trig.ctr.busy = min 65535 (s.trig.ctr.busy + 1) ∧ (∀ k, k ≠ m → t.mask k = s.mask k) ∧
      t = { s with trig := { s.trig with ctr := t.trig.ctr } }) ∧
  (∀ m s i v lo hi, s.violation m = some (i, v, lo, hi) → s.maskEn m = true → s.alignsFirst m = false →
    Answers (.contourViolation m) s fun t =>
    t.mask m = ⟨none, (s.mask m).scan, v.n + 1⟩ ∧ (∀ k, k ≠ m → t.mask k = s.mask k) ∧
    t.trig.ctr.violations = min 65535 (s.trig.ctr.violations + 1) ∧ t.trig.ctr.viol = s.datumAt (v.n / 4) ∧
    t.trig.ctr.failAt = some s.time.now ∧ bit (t.reg Reg.trgStat) 15 = true ∧
    bit (t.reg Reg.trgCtrCtl) m = !s.maskFlag m 0 ∧
    t.trig.accSeqNext = (if s.maskFlag m 1 then (s.trig.accSeqNext + 1) % 2 ^ 32 else s.trig.accSeqNext) ∧
    SameRegs [Reg.trgStat, Reg.trgCtrCtl, Reg.splStat, Reg.memStat] s t ∧ t.time = s.time ∧ t.chans = s.chans) ∧
  (∀ m s (n0 : Nat), s.alignment m = some n0 → s.maskEn m = true → s.alignsFirst m = true → n0 < (s.mask m).ended →
    Answers (.contourTest m) s fun t => t.mask m = { s.mask m with scan := n0 + 1 } ∧
      t.trig.ctr.busy = min 65535 (s.trig.ctr.busy + 1) ∧ (∀ k, k ≠ m → t.mask k = s.mask k) ∧
      t = { s with trig := { s.trig with ctr := t.trig.ctr } })
/-- BLOCK_WRITE, from crossing 256k + 257 on and once per crossing, writes period k and queues its 32 index entries behind
those that wait. INDEX_ENTRY_WRITE gives a queued block its entry, without ERROR, and takes it off the queue. SCRUB_READ, in
debt or while no fragment read, recall or copy waits, advances the pass up to its end and counts the pass that ends; at the end of its period a pass that is not finished sets
SCRUB_LATE_EVT and the next pass begins. -/
def Obligations.BlocksAreWrittenIndexedAndScrubbed : Prop :=
  (∀ ue s, s.time.sampling = true → 256 * s.hist.periods + 257 ≤ s.time.xcount → s.time.blockAt ≠ some s.time.now →
    Answers (.blockWrite ue) s fun t => t.hist.periods = s.hist.periods + 1 ∧
      t.hist.toIndex = s.hist.toIndex ++ (upto 0 32).map (fun st => (s.hist.periods, st)) ∧
      s.hist.allocTotal < t.hist.allocTotal ∧ t.hist.index = s.hist.index ∧ t.hist.pins = s.hist.pins ∧
      t.time = { s.time with blockAt := some s.time.now } ∧ SameRegs [Reg.cmpStat, Reg.memStat] s t ∧
      t = { s with hist := t.hist, time := t.time, mem := t.mem, regs := t.regs }) ∧
  (∀ period st s, s.e1Up = true → (period, st) ∈ s.hist.toIndex → Answers (.indexEntryWrite period st) s fun t =>
    (∃ e, t.entryOf period st = some e ∧ e.error = false) ∧ (period, st) ∉ t.hist.toIndex ∧
    (∀ q ∈ s.hist.toIndex, q ≠ (period, st) → q ∈ t.hist.toIndex) ∧
    (∀ k j, indexKey k j ≠ indexKey period st → t.entryAt k j = s.entryAt k j) ∧ t = { s with hist := t.hist }) ∧
  (∀ n row ecc s, bit (s.reg Reg.hisCtl) 0 = true → s.past .stack = true → s.engineUp 6 = true →
    s.hist.scrubBytes < retainedBytes → (s.inDebt = true ∨ (s.fragmentWaits = false ∧ s.nextTurn = none)) → Answers (.scrubRead n row ecc) s fun t =>
      t.hist.scrubBytes = min retainedBytes (s.hist.scrubBytes + n) ∧
      t.hist.scrubPasses = (if retainedBytes ≤ s.hist.scrubBytes + n then (s.hist.scrubPasses + 1) % 65536
        else s.hist.scrubPasses) ∧ t.hist.blocks = s.hist.blocks ∧ t.mem.user = s.mem.user ∧ t.time = s.time ∧
      SameRegs [Reg.memStat] s t) ∧
  (∀ s, s.past .stack = true → s.hist.scrubStart + s.scrubPeriod ≤ s.time.now → Answers .scrubPassEnd s fun t =>
    t.hist = { s.hist with scrubBytes := 0, scrubNo := s.hist.scrubNo + 1, scrubStart := s.time.now, scrubDebt := false } ∧
    (s.hist.scrubBytes < retainedBytes → EventSet Reg.hisStat 2 s t) ∧
    (retainedBytes ≤ s.hist.scrubBytes → t.regs = s.regs) ∧ SameRegs [Reg.hisStat] s t ∧
    t = { s with hist := t.hist, regs := t.regs })

/-- A RECALL whose chain list or mask is in host memory first issues those reads. Then it is accepted: a bad descriptor
completes BAD_DESCRIPTOR, and one that passes every check and asks for no pin enters service last, with its window, form and
channels; one resumed past its last section completes OK at once. A unit of the recall whose turn it is, when the class-3 share takes it, makes it the one served last, and an
aborted one completes ABORTED; a recall that has waited its limit for a future block completes FUTURE_TIMEOUT. PIN_COPY
takes one block off the oldest pin that can copy and holds it; UNPIN frees a pin by its handle, and completes NOT_FOUND for
one that does not exist. -/
def Obligations.RecallsAndPins : Prop :=
  (∀ ring s f, Accepts s ring f 0x20 → s.prepOf ring f.sq = none → s.recallReads ring f ≠ [] →
    s.ctl.reads.length + (s.recallReads ring f).length ≤ 64 → s.readFree = true → Answers (.recall ring) s fun t =>
      t.ctl.reads.length = s.ctl.reads.length + (s.recallReads ring f).length ∧
      t.ctl.preps = ⟨ring, f.sq, none, none, false⟩ :: s.ctl.preps ∧ t.hist = s.hist ∧ t.time = s.time) ∧
  (∀ ring s f p, Accepts s ring f 0x20 → s.e1Up = true → s.prepOf ring f.sq = p →
    (p = none → s.recallReads ring f = []) → s.recallBadDesc f.recallDesc p = true → Answers (.recall ring) s fun t =>
      Finished ring f Status.badDescriptor s t ∧ t = { s with ctl := t.ctl }) ∧
  (∀ ring s f p x, Accepts s ring f 0x20 → s.e1Up = true → s.prepOf ring f.sq = p →
    (p = none → s.recallReads ring f = []) → s.recallBadDesc f.recallDesc p = false →
    State.recallBadAddr f.recallDesc p = false → s.recallStart f.recallDesc = some x →
    (stationsOf (f.recallDesc.chans (p.bind (·.mask)))).any (s.gone (x / 256)) = false → f.recallDesc.pin = false →
    f.recallDesc.resume = false →
    Answers (.recall ring) s fun t => (∃ rc : Recall,
        t.hist = { s.hist with nextRid := s.hist.nextRid + 1, recalls := s.hist.recalls ++ [rc] } ∧ rc.rid = s.hist.nextRid ∧ rc.ring = ring ∧ rc.sq = f.sq ∧ rc.tag = f.tag ∧
        rc.startX = x ∧ rc.count = f.body 8 3 ∧ rc.form = f.body 12 1 % 4 ∧
        rc.chans = f.recallDesc.chans (p.bind (·.mask)) ∧ rc.pin = none ∧ rc.aborted = false) ∧
      t.outcomes = s.outcomes ∧ t = { s with hist := t.hist, ctl := t.ctl }) ∧
  (∀ ring s f p x, Accepts s ring f 0x20 → s.e1Up = true → s.prepOf ring f.sq = p →
    (p = none → s.recallReads ring f = []) → s.recallBadDesc f.recallDesc p = false →
    State.recallBadAddr f.recallDesc p = false → s.recallStart f.recallDesc = some x →
    (stationsOf (f.recallDesc.chans (p.bind (·.mask)))).any (s.gone (x / 256)) = false → f.recallDesc.pin = false →
    f.recallDesc.resume = true →
    recallFirst f.recallDesc.form (f.recallDesc.chans (p.bind (·.mask))) x f.recallDesc.count
      (some ((extend48 f.recallDesc.resumeX s.time.xcount).toNat,
        if f.recallDesc.form < 2 then 16 * f.recallDesc.resumeStn + f.recallDesc.resumePos
        else 16 * f.recallDesc.resumeStn)) = none →
    Answers (.recall ring) s fun t => Finished ring f Status.ok s t ∧ (∀ q ∈ t.hist.recalls, q ∈ s.hist.recalls) ∧
      t.time = s.time ∧ t.hist.pins = s.hist.pins) ∧
  (∀ ecc row s r, s.nextRecall = some r → (s.tryShare 3 0 fun t => t.recallUnit r ecc row).isSome = true →
    Answers (.recallUnit ecc row) s fun t => t.hist.lastRid = some r.rid ∧ t.hist.index.length ≤ s.hist.index.length + 1 ∧
      (r.aborted = true → Committed r.ring r.sq Status.aborted r.tag s t ∧ ∀ q ∈ t.hist.recalls, q.rid ≠ r.rid) ∧
      t.time = s.time ∧ t.chans = s.chans ∧ t.mem.user = s.mem.user) ∧
  (∀ rid s r, s.hist.recalls.find? (fun q => q.rid == rid) = some r → (s.recallWaits r || s.pinWaits r) = true →
    r.waitEnd ≤ s.time.now → r.aborted = false →
    (s.tryShare 3 0 fun t => t.recallStop r Status.futureTimeout).isSome = true → Answers (.futureTimeout rid) s fun t =>
      Committed r.ring r.sq Status.futureTimeout r.tag s t ∧ (∀ q ∈ t.hist.recalls, q.rid ≠ rid) ∧ t.time = s.time) ∧
  (∀ ecc row s p k st, s.nextCopy = some (p, k, st) → Answers (.pinCopy ecc row) s fun t =>
    (∀ q ∈ t.hist.pins, q.handle = p.handle → q.todo.length < p.todo.length ∧
      (s.present k st = true → (k, st) ∈ q.held)) ∧ t.time = s.time ∧ t.chans = s.chans ∧ t.mem.user = s.mem.user) ∧
  (∀ ring s f p, Accepts s ring f 0x21 → f.zero 1 47 = true →
    s.hist.pins.find? (fun q => q.handle == f.body 0 1) = some p → Answers (.unpin ring) s fun t =>
      (∀ q ∈ t.hist.pins, q.handle ≠ f.body 0 1) ∧
      (∃ c ∈ t.outcomes, c.ring = ring ∧ c.sq = f.sq ∧ c.status = BitVec.ofNat 8 Status.ok) ∧ t.time = s.time) ∧
  (∀ ring s f, Accepts s ring f 0x21 → f.zero 1 47 = true →
    s.hist.pins.find? (fun q => q.handle == f.body 0 1) = none → Answers (.unpin ring) s fun t =>
      Finished ring f Status.notFound s t ∧ t = { s with ctl := t.ctl })
/-- A LANE_TRAIN that names no lane of the hub does nothing. In ACQUIRE the first one for the present step leads to EQUALISE and
then acts there. In EQUALISE, for the present step, TAPS moves each tap as its
request says and answers in RESP, READY leads below the final step to SWITCH 256 crossings ahead and at the final step to
TEST; READY in TEST leads to JOIN once TEST_ORBITS orbits have passed, and not before. RESTART, and a failed attempt below
the fourth, lead to ACQUIRE at step 0; the fourth leads to BACKOFF and sets its event, and a later one to BACKOFF alone. RESTART of an UP
lane declares it down. A switch crossing raises the step, a
lane in JOIN comes UP with no attempts counted, and BACKOFF ends after 2²⁵ crossings. TAPS of an UP lane move its taps at
an idle character: at once with nothing in progress, else later. A Brix training sequence that does not read whole or has a bad
CRC moves nothing but the disparity and the count of code errors of its receive lane; one that asks for tap moves moves the taps
of the port's lane. A data lane that is UP and sends nothing in a crossing sends K28.5 in every character of it. A sequence that an uplink in training sends opens with K28.2 and carries its lane, STEP, TSTATE and a CRC.
No lane changes but the one named. That RESTART needs no step, and how the limits and TEST_ORBITS count, are the model's readings
(log entries 77 and 15). -/
def Obligations.LanesTrain : Prop :=
  (∀ b s, 32 ≤ byteAt b 0 → exec (.taps b) s = .next s ∧ exec (.ready b) s = .next s ∧ exec (.restart b) s = .next s ∧
    exec (.laneDown b) s = .next s) ∧
  (∀ b s n, byteAt b 0 = n → n < 32 → (s.lane n).st = .equalise → byteAt b 3 = (s.lane n).step →
    Answers (.taps b) s fun t => (t.lane n).st = .equalise ∧ (t.lane n).step = (s.lane n).step ∧
      (t.lane n).timerFrom = s.time.dlTicks ∧
      (t.lane n).pre = (tapMove (s.lane n).pre 7 (byteAt b 2 % 4)).1 ∧
      (t.lane n).post = (tapMove (s.lane n).post 15 (byteAt b 2 / 4 % 4)).1 ∧
      (t.lane n).swing = (tapMove (s.lane n).swing 7 (byteAt b 2 / 16 % 4)).1 ∧
      (t.lane n).resp = BitVec.ofNat 8 ((tapMove (s.lane n).pre 7 (byteAt b 2 % 4)).2 +
        4 * (tapMove (s.lane n).post 15 (byteAt b 2 / 4 % 4)).2 + 16 * (tapMove (s.lane n).swing 7 (byteAt b 2 / 16 % 4)).2) ∧
      OtherLanes n s t) ∧
  (∀ b s n, byteAt b 0 = n → n < 32 → (s.lane n).st = .equalise → byteAt b 3 = (s.lane n).step →
    Answers (.ready b) s fun t => ((s.lane n).step < finalStep n → (t.lane n).st = .switch ∧
        (t.lane n).switchAt = s.time.now + 256) ∧
      (finalStep n ≤ (s.lane n).step → (t.lane n).st = .test ∧ (t.lane n).testFrom = s.time.now ∧ (t.lane n).testN = s.n) ∧
      (t.lane n).step = (s.lane n).step ∧ OtherLanes n s t) ∧
  (∀ b s n, byteAt b 0 = n → n < 32 → (s.lane n).st = .test → byteAt b 3 = (s.lane n).step →
    Answers (.ready b) s fun t => (t.lane n).st = (if (s.lane n).testFrom + s.fld1 Reg.lnkTrainTmr 7 0 * (s.lane n).testN ≤
        s.time.now then .join else .test) ∧ OtherLanes n s t) ∧
  (∀ b s n, byteAt b 0 = n → n < 32 → (s.lane n).st.training = true → Answers (.restart b) s fun t =>
    (t.lane n).st = .acquire ∧ (t.lane n).step = 0 ∧ (t.lane n).attempts = (s.lane n).attempts ∧
    OtherLanes n s t) ∧
  (∀ n s, (s.lane n).st = .switch → (s.lane n).switchAt ≤ s.time.now → Answers (.laneSwitch n) s fun t =>
    (t.lane n).st = .acquire ∧ (t.lane n).step = (s.lane n).step + 1 ∧ OtherLanes n s t) ∧
  (∀ n s, (s.lane n).st = .join → Answers (.laneJoin n) s fun t => (t.lane n).st = .up ∧ (t.lane n).attempts = 0 ∧
    OtherLanes n s t) ∧
  (∀ n s, s.trainFails n = true → (s.lane n).attempts + 1 < 4 → Answers (.trainTimeout n) s fun t =>
    (t.lane n).st = .acquire ∧ (t.lane n).step = 0 ∧ (t.lane n).attempts = (s.lane n).attempts + 1 ∧
    OtherLanes n s t) ∧
  (∀ n s, s.trainFails n = true → (s.lane n).attempts = 3 → Answers (.trainTimeout n) s fun t =>
    (t.lane n).st = .backoff ∧ (t.lane n).backoffFrom = s.time.now ∧ EventSet Reg.lnkStat 7 s t ∧ SameRegs [Reg.lnkStat] s t ∧
    (∀ m, m ≠ n → t.lane m = s.lane m) ∧ t = { s with txLanes := t.txLanes, regs := t.regs }) ∧
  (∀ n s, (s.lane n).st = .backoff → (s.lane n).backoffFrom + 33554432 ≤ s.time.now → Answers (.backoffEnd n) s fun t =>
    (t.lane n).st = .acquire ∧ (t.lane n).step = 0 ∧ OtherLanes n s t) ∧
  (∀ b s n, byteAt b 0 = n → n < 32 → (s.lane n).st = .up → (s.lane n).job ≠ .idle → Answers (.taps b) s fun t =>
    t.lane n = { s.lane n with taps := (s.lane n).taps ++ [byteAt b 2] } ∧ OtherLanes n s t) ∧
  (∀ b s n, byteAt b 0 = n → n < 32 → (s.lane n).st = .up → (s.lane n).job = .idle → (s.lane n).taps = [] →
    Answers (.taps b) s fun t => (t.lane n).st = .up ∧ (t.lane n).taps = [] ∧
      (t.lane n).pre = (tapMove (s.lane n).pre 7 (byteAt b 2 % 4)).1 ∧
      (t.lane n).post = (tapMove (s.lane n).post 15 (byteAt b 2 / 4 % 4)).1 ∧
      (t.lane n).swing = (tapMove (s.lane n).swing 7 (byteAt b 2 / 16 % 4)).1 ∧ OtherLanes n s t) ∧
  (∀ pt syms s, (∀ c, trainBody (trainChars (s.rx (portRx pt)).rd syms) = some c → (crc16 (c.take 13)).toNat ≠ le c 13 2) →
    Answers (.brixTrainingSequence pt syms) s fun t => (t.rx (portRx pt)).stat = (s.rx (portRx pt)).stat ∧
      (t.rx (portRx pt)).codeErr = min 0xFFFF ((s.rx (portRx pt)).codeErr +
        ((trainChars (s.rx (portRx pt)).rd syms).filter RxChar.err).length) ∧
      (t.rx (portRx pt)).rd = disparityOf (s.rx (portRx pt)).rd (symbolsOf 16 syms) ∧
      t = s.setRx (portRx pt) (t.rx (portRx pt))) ∧
  (∀ pt syms c s, trainBody (trainChars (s.rx (portRx pt)).rd syms) = some c → (crc16 (c.take 13)).toNat = le c 13 2 →
    byteAt c 1 % 4 = (s.lane (portLane pt)).step → byteAt c 1 / 16 % 8 = 1 → (s.lane (portLane pt)).st = .equalise →
    Answers (.brixTrainingSequence pt syms) s fun t =>
      ((t.lane (portLane pt)).st = .equalise ∨
        (t.lane (portLane pt)).st = if (s.lane (portLane pt)).step < 1 then .switch else .test) ∧
      (t.lane (portLane pt)).pre = (tapMove (s.lane (portLane pt)).pre 7 (byteAt c 4 % 4)).1 ∧
      (t.lane (portLane pt)).post = (tapMove (s.lane (portLane pt)).post 15 (byteAt c 4 / 4 % 4)).1 ∧
      (t.lane (portLane pt)).swing = (tapMove (s.lane (portLane pt)).swing 7 (byteAt c 4 / 16 % 4)).1 ∧
      (∀ m, m ≠ portLane pt → t.lane m = s.lane m) ∧
      t = { s.setRx (portRx pt) (t.rx (portRx pt)) with txLanes := t.txLanes, fresh := t.fresh }) ∧
  (∀ n s b, n < 32 → (s.lane n).step < 4 → b = s.trainingSeq n (s.lane n).tseq 0 →
    Sent n (.training (k28_2 :: dataChars b)) s (s.sendTraining n) ∧ b.length = 15 ∧
    byteAt b 0 = n ∧ byteAt b 1 = (s.lane n).step + 16 * (s.lane n).st.code ∧ le b 13 2 = (crc16 (b.take 13)).toNat ∧
    (s.sendTraining n).lane n = { s.lane n with
      rd := ((s.sendTraining n).lane n).rd, resp := 0, tseq := ((s.lane n).tseq + 1) % 256 }) ∧
  (∀ b s n, byteAt b 0 = n → n < 32 → (s.lane n).st = .acquire → byteAt b 3 = (s.lane n).step →
    Answers (.taps b) s fun t => (t.lane n).st = .equalise ∧ (t.lane n).step = (s.lane n).step ∧
      (t.lane n).stepFrom = none ∧ (t.lane n).timerFrom = s.time.dlTicks ∧
      (t.lane n).pre = (tapMove (s.lane n).pre 7 (byteAt b 2 % 4)).1 ∧
      (t.lane n).post = (tapMove (s.lane n).post 15 (byteAt b 2 / 4 % 4)).1 ∧
      (t.lane n).swing = (tapMove (s.lane n).swing 7 (byteAt b 2 / 16 % 4)).1 ∧ OtherLanes n s t) ∧
  (∀ b s n, byteAt b 0 = n → n < 32 → (s.lane n).st = .acquire → byteAt b 3 = (s.lane n).step →
    Answers (.ready b) s fun t => (t.lane n).st = (if (s.lane n).step < finalStep n then .switch else .test) ∧
      (t.lane n).step = (s.lane n).step ∧ OtherLanes n s t) ∧
  (∀ b s n, byteAt b 0 = n → n < 32 → (s.lane n).st = .acquire → byteAt b 3 ≠ (s.lane n).step →
    exec (.taps b) s = .next s ∧ exec (.ready b) s = .next s) ∧
  (∀ b s n, byteAt b 0 = n → n < 32 → (s.lane n).st = .up → Answers (.restart b) s fun t =>
    (t.lane n).st = .acquire ∧ (t.lane n).step = 0 ∧ (t.lane n).job = .idle ∧
    (t.lane n).downCount = satInc 0xFFFF (s.lane n).downCount ∧ EventSet Reg.lnkStat 6 s t ∧ SameRegs [Reg.lnkStat] s t ∧
    (∀ m, m ≠ n → t.lane m = s.lane m) ∧ t.time = s.time ∧ t.mem = s.mem) ∧
  (∀ n s, s.trainFails n = true → 4 ≤ (s.lane n).attempts → Answers (.trainTimeout n) s fun t =>
    (t.lane n).st = .backoff ∧ (t.lane n).step = 0 ∧ (t.lane n).backoffFrom = s.time.now ∧
    (t.lane n).attempts = satInc 0xF (s.lane n).attempts ∧ OtherLanes n s t) ∧
  (∀ n s l, s.pending = [] → s.txLanes = [(n, l)] → 2 ≤ n → n < 32 → l.st = .up → l.job = .idle → l.taps = [] → l.seqAt = 0 →
    s.brix.bypassOpen = false → s.brix.role = .none → s.brix.mirrorOut = [] → s.brix.armsGone = [] → s.dcTest.held = none →
    s.fw.act = none → (∀ c ∈ s.fw.chunkOps, c.toRead = false) → s.tick.softResetDue = false → ∃ t, step s = .next t ∧
      t.tx = .line n l.rd (.idle (5 * 2 ^ l.step)) :: s.tx ∧
      t.lane n = { l with rd := disparityAfter l.rd (List.replicate (5 * 2 ^ l.step) k28_5) } ∧
      (∀ m, m ≠ n → t.lane m = s.lane m))

/-- LANE_DOWN and a fault of an UP uplink declare it down: it retrains from ACQUIRE at step 0 with nothing in progress, its
count of losses rises, LANE_DOWN_EVT is set, and every held packet last sent on it is queued for resending; a packet in
progress is ended with K30.7 only while its transmitter runs, and the stake of a launched frame cut off completes NOT_FOUND. A
lane in training that meets a fault fails its attempt; another lane that is not UP is left alone. A write to LNK_UL_EN puts
every lane whose bit is 0 into OFF, starts the training of every enabled lane in OFF once the bit clock runs, and leaves the
other enabled lanes alone. A DL_TAP that is due and has room sends its request in class 0 and keeps its time and the eye
height that LNK_DL_EYE reports; at DL_EYE_MIN + 10 % the requests stop; one that is not due, or finds no room, only reports
the eye of a downlink that is UP. -/
def Obligations.LanesGoDown : Prop :=
  (∀ b s n, byteAt b 0 = n → n < 32 → (s.lane n).st = .up → Answers (.laneDown b) s fun t => (t.lane n).st = .acquire ∧
    (t.lane n).step = 0 ∧ (t.lane n).job = .idle ∧ (t.lane n).downCount = satInc 0xFFFF (s.lane n).downCount ∧
    (∀ m, m ≠ n → t.lane m = s.lane m) ∧ EventSet Reg.lnkStat 6 s t ∧ SameRegs [Reg.lnkStat] s t ∧
    (2 ≤ n → ∀ c, c < 8 → ∀ p, p ∈ (s.cls c).held → p.lane = n → p.seq ∈ (t.cls c).resend) ∧
    ((s.lane n).job = .idle → t.tx = s.tx ∧ t.outcomes.Perm s.outcomes) ∧
    (∀ c q, (s.lane n).job = .packet c q → Sent n (.abort [k30_7]) s t ∧ t.outcomes.Perm s.outcomes) ∧
    (∀ r q, (s.lane n).job = .launch r q → Sent n .cut s t ∧
      t.outcomes.Perm (s.ctl.released ++ s.ctl.committed.map fun (c : Completion) =>
        if c.ring = r ∧ c.sq = q then { c with status := BitVec.ofNat 8 Status.notFound } else c)) ∧
    t.time = s.time ∧ t.mem = s.mem) ∧
  (∀ n s, (s.lane n).st = .up → Answers (.uplinkFault n) s fun t => (t.lane n).st = .acquire ∧ (t.lane n).step = 0 ∧
    (t.lane n).job = .idle ∧ (t.lane n).downCount = satInc 0xFFFF (s.lane n).downCount ∧
    (∀ m, m ≠ n → t.lane m = s.lane m) ∧ EventSet Reg.lnkStat 6 s t ∧ SameRegs [Reg.lnkStat] s t ∧
    (∀ c q, (s.lane n).job = .packet c q → t.tx = s.tx) ∧ t.time = s.time ∧ t.mem = s.mem) ∧
  (∀ b n s, (s.lane n).st ≠ .up → byteAt b 0 = n → exec (.laneDown b) s = .next s) ∧
  (∀ n s, (s.lane n).st ≠ .up → (s.lane n).st.training = false → exec (.uplinkFault n) s = .next s) ∧
  (∀ n s, (s.lane n).st.training = true → Answers (.uplinkFault n) s fun t =>
    (t.lane n).st = (if (s.lane n).attempts + 1 < 4 then .acquire else .backoff) ∧ (t.lane n).step = 0 ∧
    (t.lane n).attempts = satInc 0xF (s.lane n).attempts ∧ (∀ m, m ≠ n → t.lane m = s.lane m) ∧
    SameRegs [Reg.lnkStat] s t ∧ t = { s with txLanes := t.txLanes, regs := t.regs }) ∧
  (∀ p v s, Reaches s p Reg.lnkUlEn → Answers (.ulEnWrite p v) s fun t => Took Reg.lnkUlEn Reg.lnkUlEn v s t ∧
    (∀ n, n < 32 → bit (t.reg Reg.lnkUlEn) n = false → (t.lane n).st = .off ∧ (t.lane n).step = 0) ∧
    (∀ n, n < 32 → bit (t.reg Reg.lnkUlEn) n = true → (s.lane n).st = .off → s.power.pllLocked = true →
      (t.lane n).st = .acquire ∧ (t.lane n).step = 0) ∧
    (∀ n, n < 32 → bit (t.reg Reg.lnkUlEn) n = true → ((s.lane n).st ≠ .off ∨ s.power.pllLocked = false) →
      t.lane n = s.lane n) ∧
    (∀ n, 32 ≤ n → t.lane n = s.lane n) ∧ SameRegs [Reg.lnkUlEn, Reg.lnkStat] s t ∧ t.time = s.time ∧ t.mem = s.mem) ∧
  (∀ dl eye req s u, s.dlTapDue dl eye = true → eye < 256 →
    (s.tryShare 0 0 fun v => v.placeMessage 0x22 (dlTapBody dl eye req)) = some u → Answers (.dlTap dl eye req) s fun t =>
      t.spool = u.spool ∧ (t.rx (dlLane dl)).tapReq = true ∧ (t.rx (dlLane dl)).tapAt = some u.time.now ∧
      (dl = .a → bits (t.reg Reg.lnkDlEye) 23 16 = eye) ∧ (dl = .b → bits (t.reg Reg.lnkDlEye) 31 24 = eye) ∧
      t.txLanes = u.txLanes ∧ t.time = u.time ∧ t.mem = u.mem) ∧
  (∀ dl eye req s, s.dlTapEnds dl eye = true → eye < 256 → Answers (.dlTap dl eye req) s fun t =>
    (t.rx (dlLane dl)).tapReq = false ∧ (t.rx (dlLane dl)).tapAt = (s.rx (dlLane dl)).tapAt ∧
    (dl = .a → bits (t.reg Reg.lnkDlEye) 23 16 = eye) ∧ (dl = .b → bits (t.reg Reg.lnkDlEye) 31 24 = eye) ∧
    t.spool = s.spool ∧ t.txLanes = s.txLanes ∧ t.time = s.time ∧ t.mem = s.mem ∧ SameRegs [Reg.lnkDlEye] s t) ∧
  (∀ dl eye req s, (s.dlTapDue dl eye = false ∨ (s.tryShare 0 0 fun v => v.placeMessage 0x22 (dlTapBody dl eye req)) = none) →
    s.dlTapEnds dl eye = false → exec (.dlTap dl eye req) s = .next (if s.rxUp (dlLane dl) then s.setEye dl eye else s))

/-- A lane in LOS that is enabled goes to ACQUIRE with signal; 64 consecutive good frames make it ALIGNED; a K28.1 received
while ALIGNED makes it UP. A loss of clock returns it to ACQUIRE with a signal present, and a loss of signal to LOS, with its
run of good frames over, and sets LANE_DOWN_EVT when it was UP. A reference found outside 34 900 to 45 100 kHz, or moving by more than
20 ppm a second, or REFCLK more than 0.5 ppm off the up downlink's clock, is noted as unusable, sets its event and, when it is
a lane, is declared down; one that passes is noted as usable, one that was found bad before among them (the model's reading of R272,
log entry 51). Memory, the history store and the spool are left alone, and
the transmit lanes too but for the lane of a Brix port in the ring whose receive lane was UP, which trains anew (the model's
reading, log entry 96). -/
def Obligations.ReceiveLanesFollowTheirSignal : Prop :=
  (∀ l s, (s.rx l).stat = .los → s.rxEnabled l = true → Answers (.signalDetect l) s fun t => (t.rx l).stat = .acquire ∧
    (t.rx l).goodRun = 0 ∧ (t.rx l).badRun = 0 ∧ t = s.setRx l (t.rx l)) ∧
  (∀ l s, ((s.rx l).stat ≠ .los ∨ s.rxEnabled l = false) → exec (.signalDetect l) s = .next s) ∧
  (∀ l s, (s.rx l).stat = .acquire → 64 ≤ (s.rx l).goodRun → Answers (.downlinkAligned l) s fun t =>
    (t.rx l).stat = .aligned ∧ (t.rx l).codeErr = (s.rx l).codeErr ∧ t = s.setRx l (t.rx l)) ∧
  (∀ l s x, (s.rx l).stat = .aligned → (s.rx l).k281 = some x → Answers (.downlinkUp l) s fun t => (t.rx l).stat = .up ∧
    t.txLanes = s.txLanes ∧ t.mem = s.mem ∧ t.hist = s.hist ∧ t.spool = s.spool) ∧
  (∀ l sig s, (s.rx l).stat ≠ .los → Answers (.receiveLaneDown ⟨l, sig⟩) s fun t =>
    (t.rx l).stat = (if sig then .acquire else .los) ∧ (t.rx l).goodRun = 0 ∧ (t.rx l).codeErr = (s.rx l).codeErr ∧
    ((s.rx l).stat = .up → bit (t.reg Reg.lnkStat) 6 = true) ∧ ((s.rx l).stat ≠ .up → (s.rx l).slotBuf = none → t.regs = s.regs) ∧
    (∀ n, (∀ pt, rxPort l = some pt → n ≠ portLane pt) → t.lane n = s.lane n) ∧
    ((s.rx l).stat ≠ .up ∨ s.brix.bypassOpen = false → t.txLanes = s.txLanes) ∧
    (∀ pt, rxPort l = some pt → (s.rx l).stat = .up → s.brix.bypassOpen = true → s.laneUp (portLane pt) = true →
      (t.lane (portLane pt)).st = .acquire ∧ (t.lane (portLane pt)).step = 0) ∧
    t.mem = s.mem ∧ t.hist = s.hist ∧ t.spool = s.spool) ∧
  (∀ lane k p d s, s.freqRef lane = false → exec (.refFreqCheck lane k p d) s = .next s) ∧
  (∀ l k p d s, s.freqRef (some l) = true → (k < 34900 ∨ 45100 < k ∨ 20 < p) →
    Answers (.refFreqCheck (some l) k p d) s fun t => bit (t.reg Reg.lnkStat) 9 = true ∧
      (l = .dla → t.ref.dlaBad = true) ∧ (l = .dlb → t.ref.dlbBad = true) ∧ (l = .brixP → t.ref.brixPBad = true) ∧
      (l = .brixQ → t.ref.brixQBad = true) ∧ (t.rx l).stat ≠ .up ∧
    (∀ n, (∀ pt, rxPort l = some pt → n ≠ portLane pt) → t.lane n = s.lane n) ∧
    ((s.rx l).stat ≠ .up ∨ s.brix.bypassOpen = false → t.txLanes = s.txLanes) ∧
    (∀ pt, rxPort l = some pt → (s.rx l).stat = .up → s.brix.bypassOpen = true → s.laneUp (portLane pt) = true →
      (t.lane (portLane pt)).st = .acquire ∧ (t.lane (portLane pt)).step = 0) ∧
    t.mem = s.mem ∧ t.hist = s.hist ∧ t.spool = s.spool) ∧
  (∀ k p d s, s.freqRef none = true → (k < 34900 ∨ 45100 < k ∨ 20 < p ∨ (s.framing ≠ none ∧ 500 < d)) →
    Answers (.refFreqCheck none k p d) s fun t => bit (t.reg Reg.lnkStat) 9 = true ∧ t.ref.refclkBad = true ∧
      t.time = s.time ∧ t.txLanes = s.txLanes ∧ t.mem = s.mem ∧ t.hist = s.hist ∧ t.spool = s.spool) ∧
  (∀ lane k p d s, s.freqRef lane = true → 34900 ≤ k → k ≤ 45100 → p ≤ 20 → (d ≤ 500 ∨ lane ≠ none) →
    Answers (.refFreqCheck lane k p d) s fun t => (lane = none → t.ref.refclkBad = false) ∧
      (lane = some .dla → t.ref.dlaBad = false) ∧ (lane = some .dlb → t.ref.dlbBad = false) ∧
      (lane = some .brixP → t.ref.brixPBad = false) ∧ (lane = some .brixQ → t.ref.brixQBad = false) ∧
      t.reg Reg.lnkStat = s.reg Reg.lnkStat ∧ t.txLanes = s.txLanes ∧ t.mem = s.mem ∧ t.hist = s.hist ∧ t.spool = s.spool)
/-- An open packet FLUSH crossings old is closed: it takes the next SEQ of its class with BMARK set and joins the send queue;
a younger one stays. A packet starts on a data lane that is UP with nothing in progress, SPL_CTL allowing, when no exchange
frame or launch is due there: it goes out whole with its header's CRC, is held, and occupies the lane. A new packet fits the
class's credit and takes it; a resent one takes none, leaves the resend list and is counted, and its fourth resend on timeout
sets ACK_STALL, a resend counting when it starts (the model's reading, log entry 75). Once the guaranteed starts of classes 3 and 7
are used up, no class of lower rank number has a packet that may go. The end of a packet frees its lane and starts its
timer; the end of a launched frame frees its lane. Other classes, other lanes and all but the spool, the lanes and the SPOOL macros are left alone. -/
def Obligations.PacketsCloseStartAndEnd : Prop :=
  (∀ c s o, (s.cls c).open_ = some o → o.firstAt + s.fld1 Reg.splTmr 7 0 ≤ s.time.now → Answers (.packetFlush c) s fun t =>
    (t.cls c).open_ = none ∧ (t.cls c).nextSeq = ((s.cls c).nextSeq + 1) % 2 ^ 32 ∧
    (∃ p : Packet, (t.cls c).queue = (s.cls c).queue ++ [p] ∧ p.seq = (s.cls c).nextSeq ∧ p.payload = o.bytes ∧
      p.bmark = true ∧ p.start = o.start ∧ p.sends = 0) ∧ (t.cls c).held = (s.cls c).held ∧
    (t.cls c).limit = (s.cls c).limit ∧ (t.cls c).used = (s.cls c).used ∧ (t.cls c).bm = (s.cls c).bm ∧
    (∀ d, d ≠ c → t.cls d = s.cls d) ∧ SameRegs [Reg.memStat] s t ∧ t.mem.user = s.mem.user ∧
    t = { s with spool := t.spool, mem := t.mem, regs := t.regs }) ∧
  (∀ c s o, (s.cls c).open_ = some o → s.time.now < o.firstAt + s.fld1 Reg.splTmr 7 0 →
    exec (.packetFlush c) s = .next s) ∧
  (∀ n s c p r, 2 ≤ n → n < 32 → (s.lane n).st = .up → (s.lane n).job = .idle → bit (s.reg Reg.splCtl) 0 = true →
    s.servo.frameDue = false → s.clearOfLaunch n (p.payload.length + 14) = true → s.nextClass = some c →
    s.nextOf c = some (p, r) → Answers (.packetStart n none) s fun t => (t.lane n).job = .packet c p.seq ∧
      Sent n (.packet (framedChars k27_7 (p.header c r ++ p.payload ++ leBytes 4 (crc32c (p.header c r ++ p.payload)).toNat)))
        s t ∧ SameRegs [Reg.splStat] s t ∧ (r = false → t.regs = s.regs) ∧
      (r = false → (t.cls c).used = ((s.cls c).used + (p.payload.length + 255) / 256) % 2 ^ 32 ∧
        (((p.payload.length + 255) / 256 : Nat) : Int) ≤ sext 32 ((s.cls c).limit + 2 ^ 32 - (s.cls c).used % 2 ^ 32) ∧
        (s.cls c).queue = p :: (t.cls c).queue ∧ (t.cls c).lastSent = some p.seq ∧
        (t.cls c).held = (s.cls c).held ++ [({ p with sends := p.sends + 1, lane := n, sentAt := none, onTmo := false } : Packet)]) ∧
      (r = true → (t.cls c).used = (s.cls c).used ∧ (t.cls c).queue = (s.cls c).queue ∧ p.seq ∈ (s.cls c).resend ∧
        p.seq ∉ (t.cls c).resend ∧
        (p.forLoss = true → (t.cls c).rsndLane = satInc 0xFFFF (s.cls c).rsndLane ∧ (t.cls c).rsndTmo = (s.cls c).rsndTmo ∧
          t.spool.laneRsnd = satInc 0xFFFFFFFF s.spool.laneRsnd) ∧
        (p.forLoss = false → (t.cls c).rsndTmo = satInc 0xFFFF (s.cls c).rsndTmo ∧
          (t.cls c).rsndLane = (s.cls c).rsndLane ∧ t.spool.laneRsnd = s.spool.laneRsnd) ∧
        (p.onTmo = true → 3 ≤ p.tmoResends → EventSet Reg.splStat 4 s t) ∧
        ((p.onTmo = false ∨ p.tmoResends < 3) → t.regs = s.regs)) ∧
      (s.fld Reg.splArb 7 0 ≤ s.spool.win3 → s.fld Reg.splArb 15 8 ≤ s.spool.win7 →
        ∀ d, d ∈ rankOrder.takeWhile (fun d => d != c) → s.nextOf d = none) ∧
      (t.cls c).limit = (s.cls c).limit ∧ (∀ d, d ≠ c → t.cls d = s.cls d) ∧
      t = { s with spool := t.spool, txLanes := t.txLanes, tx := t.tx, regs := t.regs, fresh := t.fresh }) ∧
  (∀ n s c q, (s.lane n).job = .packet c q → Answers (.packetSent n) s fun t => (t.lane n).job = .idle ∧
    (t.lane n).st = (s.lane n).st ∧ (∀ p, p ∈ (t.cls c).held → p.seq = q → p.sentAt = some s.spool.upTicks) ∧
    (t.cls c).held.map (fun p => (p.seq, p.payload)) = (s.cls c).held.map (fun p => (p.seq, p.payload)) ∧
    (t.cls c).bm = (s.cls c).bm ∧ (∀ d, d ≠ c → t.cls d = s.cls d) ∧ (∀ m, m ≠ n → t.lane m = s.lane m) ∧
    t = { s with spool := t.spool, txLanes := t.txLanes }) ∧
  (∀ n s r q, (s.lane n).job = .launch r q → Answers (.packetSent n) s fun t => (t.lane n).job = .idle ∧
    (t.lane n).st = (s.lane n).st ∧ (∀ m, m ≠ n → t.lane m = s.lane m) ∧ t.outcomes.Perm s.outcomes ∧
    t = { s with ctl := t.ctl, txLanes := t.txLanes }) ∧
  (∀ n s, (s.lane n).job = .idle → exec (.packetSent n) s = .next s)

/-- After reset the Benchmark of each class is 0xFFFF_FFFF and the class holds nothing. A well-formed SPL_ACK with ACK_SEQ
valid, after the Benchmark and no later than the last SEQ sent, moves the Benchmark to ACK_SEQ and releases at once exactly the
packets at or before it (records that wait for the class's share may then be placed, which may free accepts); one at or before the Benchmark has no effect on Benchmark or packets, and none at all with no credit
limit beside it; one later than the last SEQ sent, or with nothing sent yet, sets ACK_BAD and has no other effect. -/
def Obligations.AcknowledgementsMoveTheBenchmark : Prop :=
  (∀ c, c < 8 → (State.reset.cls c).bm = 0xFFFFFFFF ∧ (State.reset.cls c).held = [] ∧ (State.reset.cls c).lastSent = none) ∧
  (∀ b s c l, splBodyOk true b = true → byteAt b 1 % 2 = 1 → byteAt b 0 = c → (s.cls c).lastSent = some l →
    0 < sext 32 (le b 4 4 + 2 ^ 32 - (s.cls c).bm) → sext 32 (le b 4 4 + 2 ^ 32 - l) ≤ 0 → Answers (.splAck b) s fun t =>
      (t.cls c).bm = le b 4 4 ∧
      (∀ p, p ∈ (t.cls c).held ↔ p ∈ (s.cls c).held ∧ 0 < sext 32 (p.seq + 2 ^ 32 - le b 4 4)) ∧
      (∀ q, q ∈ (t.cls c).resend ↔ q ∈ (s.cls c).resend ∧ 0 < sext 32 (q + 2 ^ 32 - le b 4 4)) ∧
      (s.classWaits c = false → (t.cls c).queue = (s.cls c).queue ∧ (t.cls c).open_ = (s.cls c).open_ ∧ t.regs = s.regs ∧ t.trig = s.trig) ∧
      (t.cls c).used = (s.cls c).used ∧ (∀ d, d ≠ c → t.cls d = s.cls d) ∧ t.outcomes.Perm s.outcomes ∧
      SameRegs [Reg.memStat] s t ∧ t.mem.user = s.mem.user ∧
      t = { s with spool := t.spool, mem := t.mem, regs := t.regs, ctl := t.ctl,
                   trig := { s.trig with accQueue := t.trig.accQueue } }) ∧
  (∀ b s c, splBodyOk true b = true → byteAt b 1 % 2 = 1 → byteAt b 0 = c →
    sext 32 (le b 4 4 + 2 ^ 32 - (s.cls c).bm) ≤ 0 → Answers (.splAck b) s fun t => (t.cls c).bm = (s.cls c).bm ∧
      (t.cls c).held = (s.cls c).held ∧ (t.cls c).resend = (s.cls c).resend ∧ (t.cls c).queue = (s.cls c).queue ∧
      t.regs = s.regs ∧ (byteAt b 1 = 1 → t = s)) ∧
  (∀ b s c, splBodyOk true b = true → byteAt b 1 % 2 = 1 → byteAt b 0 = c →
    0 < sext 32 (le b 4 4 + 2 ^ 32 - (s.cls c).bm) →
    (∀ l, (s.cls c).lastSent = some l → 0 < sext 32 (le b 4 4 + 2 ^ 32 - l)) → Answers (.splAck b) s fun t =>
      EventSet Reg.splStat 3 s t ∧ SameRegs [Reg.splStat] s t ∧ (t.cls c).bm = (s.cls c).bm ∧
      (t.cls c).held = (s.cls c).held ∧ (t.cls c).resend = (s.cls c).resend ∧ (t.cls c).queue = (s.cls c).queue ∧
      (byteAt b 1 = 1 → t = { s with regs := t.regs }) ∧ t = { s with regs := t.regs, spool := t.spool })

/-- LIMIT and USED of each class are 0 after reset and a packet of LEN bytes needs ceil(LEN / 256) credits. A well-formed SPL_ACK
that carries a credit limit sets LIMIT of its class to it, unless its difference from LIMIT as a signed 32-bit value is
negative, when LIMIT stays; a write to SPL_Cc_CREDIT on a path that serves with the page unlocked sets LIMIT to the word.
Neither changes USED, nor anything of another class. USED counts modulo 2³²: a new packet that starts adds what it needs. -/
def Obligations.CreditLimitsAreRaisedOrWritten : Prop :=
  (∀ c, c < 8 → (State.reset.cls c).limit = 0 ∧ (State.reset.cls c).used = 0) ∧
  (∀ p : Packet, p.credits = (p.payload.length + 255) / 256) ∧
  (∀ b s c, splBodyOk true b = true → byteAt b 1 = 2 → byteAt b 0 = c → Answers (.splAck b) s fun t =>
    (t.cls c).limit = (if sext 32 (le b 8 4 + 2 ^ 32 - (s.cls c).limit) < 0 then (s.cls c).limit else le b 8 4) ∧
    (t.cls c).used = (s.cls c).used ∧ (∀ d, d ≠ c → t.cls d = s.cls d) ∧ t = { s with spool := t.spool }) ∧
  (∀ b s c, splBodyOk true b = true → byteAt b 1 = 3 → byteAt b 0 = c → Answers (.splAck b) s fun t =>
    (t.cls c).limit = (if sext 32 (le b 8 4 + 2 ^ 32 - (s.cls c).limit) < 0 then (s.cls c).limit else le b 8 4) ∧
    (t.cls c).used = (s.cls c).used ∧ (∀ d, d ≠ c → t.cls d = s.cls d)) ∧
  (∀ p c v s, c < 8 → Reaches s p (Reg.splCredit c) → Answers (.splCreditWrite p c v) s fun t =>
    (t.cls c).limit = v.toNat ∧ (t.cls c).used = (s.cls c).used ∧ (∀ d, d ≠ c → t.cls d = s.cls d) ∧
    Took (Reg.splCredit c) (Reg.splCredit c) v s t ∧ SameRegs [Reg.splCredit c] s t ∧
    t = State.withPaths { s with spool := t.spool } t) ∧
  (∀ n s c p, 2 ≤ n → n < 32 → (s.lane n).st = .up → (s.lane n).job = .idle → bit (s.reg Reg.splCtl) 0 = true →
    s.servo.frameDue = false → s.clearOfLaunch n (p.payload.length + 14) = true → s.nextClass = some c →
    s.nextOf c = some (p, false) → Answers (.packetStart n none) s fun t =>
      (t.cls c).used = ((s.cls c).used + p.credits) % 2 ^ 32)

/-- A write to SPL_Cc_SHARE, on a path that serves and with the page unlocked, that keeps the sum of the shares, a share of 0
acting as 1, at 128 or less is taken; another leaves the share and sets SHARE_ERR. A malformed SPL_ACK or SPL_NAK only counts in MSG_BAD. An SPL_NAK, with
NAK_EN = 1, for a held packet that has been sent and is neither on the wire nor queued queues it; for any
other it does nothing. A held packet whose timer ran out is queued as a resend on timeout, which counts when it starts (the model's reading, log entry 75). Nothing but the class's
resends and the named bits changes. -/
def Obligations.SharesAndResends : Prop :=
  (∀ p c v s, c < 8 → Reaches s p (Reg.splShare c) → s.shareSum c v ≤ 128 → Answers (.splShareWrite p c v) s fun t =>
    bits (t.reg (Reg.splShare c)) 7 0 = bits v 7 0 ∧ SameRegs [Reg.splShare c, Reg.memStat] s t ∧
    (s.classWaits c = false → t = s.withPaths t ∧ SameRegs [Reg.splShare c] s t) ∧ t.mem.user = s.mem.user ∧
    (∀ d, d ≠ c → t.cls d = s.cls d) ∧ (t.cls c).held = (s.cls c).held ∧
    t = { s.withPaths t with spool := t.spool, mem := t.mem, trig := { s.trig with accQueue := t.trig.accQueue } }) ∧
  (∀ p c v s, c < 8 → Reaches s p (Reg.splShare c) → 128 < s.shareSum c v → Answers (.splShareWrite p c v) s fun t =>
    EventSet Reg.splStat 2 s t ∧ SameRegs [Reg.splStat] s t ∧ t = s.withPaths t) ∧
  (∀ b s, splBodyOk true b = false → Answers (.splAck b) s fun t =>
    bits (t.reg Reg.splStat) 31 16 = satInc 0xFFFF (bits (s.reg Reg.splStat) 31 16) ∧
    bits (t.reg Reg.splStat) 15 0 = bits (s.reg Reg.splStat) 15 0 ∧ SameRegs [Reg.splStat] s t ∧
    t = { s with regs := t.regs }) ∧
  (∀ b s, splBodyOk false b = false → Answers (.splNak b) s fun t =>
    bits (t.reg Reg.splStat) 31 16 = satInc 0xFFFF (bits (s.reg Reg.splStat) 31 16) ∧
    bits (t.reg Reg.splStat) 15 0 = bits (s.reg Reg.splStat) 15 0 ∧ SameRegs [Reg.splStat] s t ∧
    t = { s with regs := t.regs }) ∧
  (∀ b s c q, splBodyOk false b = true → byteAt b 0 = c → le b 4 4 = q → bit (s.reg Reg.splCtl) 1 = true →
    q ∉ (s.cls c).resend → (∃ p, p ∈ (s.cls c).held ∧ p.seq = q ∧ p.sentAt.isSome = true) → Answers (.splNak b) s fun t =>
      (∀ x, x ∈ (t.cls c).resend ↔ x = q ∨ x ∈ (s.cls c).resend) ∧ (t.cls c).held.length = (s.cls c).held.length ∧
      (t.cls c).rsndTmo = (s.cls c).rsndTmo ∧ (∀ d, d ≠ c → t.cls d = s.cls d) ∧
      t = { s with spool := t.spool }) ∧
  (∀ b s, splBodyOk false b = true → (bit (s.reg Reg.splCtl) 1 = false ∨ le b 4 4 ∈ (s.cls (byteAt b 0)).resend ∨
      ∀ p, p ∈ (s.cls (byteAt b 0)).held → p.seq = le b 4 4 → p.sentAt = none) → exec (.splNak b) s = .next s) ∧
  (∀ c q s, s.ackDue c q = true → Answers (.ackTimeout c q) s fun t =>
    (∀ x, x ∈ (t.cls c).resend ↔ x = q ∨ x ∈ (s.cls c).resend) ∧
    (t.cls c).rsndTmo = (s.cls c).rsndTmo ∧ (t.cls c).held.length = (s.cls c).held.length ∧
    (∀ p, p ∈ (t.cls c).held → p.seq = q → p.onTmo = true ∧ p.forLoss = false) ∧
    (∀ d, d ≠ c → t.cls d = s.cls d) ∧ t = { s with spool := t.spool }) ∧
  (∀ c q s, s.ackDue c q = false → exec (.ackTimeout c q) s = .next s)
/-- With E0 in service the ring that is served next has descriptors fetched by one read from its submission queue, at least one and at most 4,
none beyond its tail, its room for completions or the end of the queue, and FETCH moves on by their number. The
completion that was released first is written at its ring's WRITE index with the PHASE of the lap, and its operation is over; with
none released nothing happens. A
write to CTL_RINGr_CFG, on a path that serves and with the page unlocked, starts an IDLE ring with EN = 1 afresh; with EN = 0
it takes an ACTIVE one out of service, what it had fetched completes ABORTED, and an ABORT that waits for a descriptor which the ring
will not fetch any more completes OK (the model's reading, log entry 87); with EN = 1 it leaves an ACTIVE one running
with its sizes as they are. Other rings are left alone. -/
def Obligations.RingsFetchReleaseAndSwitch : Prop :=
  (∀ s r, s.fetchRing = some r → s.e0Up = true → Answers .descriptorFetch s fun t => (∃ q n, t.ctl.reads = s.ctl.reads ++ [q] ∧
      q.use = .fetch r (s.ring r).fetch n s.ctl.fetchOrd ∧ q.len = 64 * n ∧ q.data = [] ∧
      q.addr = s.reg64 (Reg.ctlSqBase r) + 64 * ((s.ring r).fetch % 2 ^ s.sqLog2 r) ∧ 1 ≤ n ∧ n ≤ 4 ∧
      n ≤ sub16 (s.ring r).tail (s.ring r).fetch ∧ n ≤ s.cqRoom r ∧
      (s.ring r).fetch % 2 ^ s.sqLog2 r + n ≤ 2 ^ s.sqLog2 r ∧ (t.ring r).fetch = ((s.ring r).fetch + n) % 65536) ∧
    (t.ring r).tail = (s.ring r).tail ∧ (t.ring r).fetched = (s.ring r).fetched ∧ (∀ k, k ≠ r → t.ring k = s.ring k) ∧
    t.ctl.committed = s.ctl.committed ∧ SameRegs [Reg.memStat] s t ∧ t.time = s.time ∧ t.hist = s.hist) ∧
  (∀ s, s.fetchRing = none → exec .descriptorFetch s = .next s) ∧
  (∀ s, s.ctl.released = [] → exec .completionRelease s = .next s) ∧
  (∀ s c rest, s.ctl.released = c :: rest → s.e0Up = true → s.creditRoom 48 = true →
    (State.tryShare { s with ctl := { s.ctl with released := rest } } 0 0 fun u => u.writeCompletion c).isSome = true →
    Answers .completionRelease s fun t => t.ctl.released = rest ∧ t.ctl.committed = s.ctl.committed ∧
      (t.ring c.ring).write = ((s.ring c.ring).write + 1) % 65536 ∧
      (∀ p, p ∈ (t.ring c.ring).accepted ↔ p ∈ (s.ring c.ring).accepted ∧ (c.extra = true ∨ p.1 ≠ c.sq)) ∧
      t.spool = (State.hostWrite { s with ctl := { s.ctl with released := rest } } 0 (s.reg64 (Reg.ctlCqBase c.ring) +
        32 * ((s.ring c.ring).write % 2 ^ s.cqLog2 c.ring))
        (c.entry ((s.ring c.ring).write / 2 ^ s.cqLog2 c.ring % 2 == 0))).spool ∧
      (∀ k, k ≠ c.ring → t.ring k = s.ring k) ∧ SameRegs [Reg.memStat] s t ∧ t.time = s.time ∧ t.hist = s.hist) ∧
  (∀ p r v s, r < 32 → Reaches s p (Reg.ctlCfg r) → (s.ring r).st = 0 → bit v 16 = true →
    Answers (.ringCfgWrite p r v) s fun t => (t.ring r).st = 1 ∧ (t.ring r).tail = 0 ∧ (t.ring r).fetch = 0 ∧
      (t.ring r).write = 0 ∧ (t.ring r).head = 0 ∧ bits (t.reg (Reg.ctlCfg r)) 7 0 = bits v 7 0 ∧
      bit (t.reg (Reg.ctlCfg r)) 16 = true ∧ (∀ k, k ≠ r → t.ring k = s.ring k) ∧ SameRegs [Reg.ctlCfg r] s t ∧
      t = State.withPaths { s with ctl := t.ctl } t) ∧
  (∀ p r v s, r < 32 → Reaches s p (Reg.ctlCfg r) → (s.ring r).st = 1 → bit v 16 = false → NoAbortWaits s r →
    Answers (.ringCfgWrite p r v) s fun t => ((t.ring r).st = 2 ∨ (t.ring r).st = 0) ∧ (t.ring r).fetched = [] ∧
      bits (t.reg (Reg.ctlCfg r)) 7 0 = bits (s.reg (Reg.ctlCfg r)) 7 0 ∧ bit (t.reg (Reg.ctlCfg r)) 16 = false ∧
      (∃ l : List Completion, t.outcomes.Perm (s.outcomes ++ l) ∧
        l.map (fun c => (c.ring, c.sq, c.status)) = (s.ring r).fetched.map (fun f => (r, f.sq, 0x02#8))) ∧
      (∀ p, p ∈ t.ctl.preps → p.ring ≠ r) ∧
      (∀ k, k ≠ r → t.ring k = s.ring k) ∧ SameRegs [Reg.ctlCfg r] s t ∧ t = State.withPaths { s with ctl := t.ctl } t) ∧
  (∀ p r v s, r < 32 → Reaches s p (Reg.ctlCfg r) → (s.ring r).st = 1 → bit v 16 = true →
    bit (s.reg (Reg.ctlCfg r)) 16 = true → Answers (.ringCfgWrite p r v) s fun t => t.ctl = s.ctl ∧
      bits (t.reg (Reg.ctlCfg r)) 7 0 = bits (s.reg (Reg.ctlCfg r)) 7 0 ∧ bit (t.reg (Reg.ctlCfg r)) 16 = true ∧
      SameRegs [Reg.ctlCfg r] s t ∧ t = s.withPaths t) ∧
  (∀ p r v s, r < 32 → Reaches s p (Reg.ctlCfg r) → (s.ring r).st = 1 → bit v 16 = false → s.ctl.aborts.Nodup →
    Answers (.ringCfgWrite p r v) s fun t => ((t.ring r).st = 2 ∨ (t.ring r).st = 0) ∧ (t.ring r).fetched = [] ∧
      (∃ l m : List Completion, t.outcomes.Perm (s.outcomes ++ l ++ m) ∧
        l.map (fun c => (c.ring, c.sq, c.status)) = (s.ring r).fetched.map (fun f => (r, f.sq, 0x02#8)) ∧
        m.map (fun c => (c.ring, c.sq, c.status, c.tag)) = (s.ctl.aborts.filter fun a =>
          a.targetRing = r ∧ s.inFetch r a.targetSq = false).map (fun a => (a.ring, a.sq, 0x00#8, a.tag))) ∧
      t.ctl.aborts = s.ctl.aborts.filter (fun a => ¬ (a.targetRing = r ∧ s.inFetch r a.targetSq = false)) ∧
      SameRegs [Reg.ctlCfg r] s t ∧ t = State.withPaths { s with ctl := t.ctl } t)

/-- A NOP completes OK when its body is 0 and BAD_DESCRIPTOR otherwise; an opcode without an operation completes UNSUPPORTED,
and one marked by an ABORT completes ABORTED; a reserved header bit makes BAD_DESCRIPTOR. TIE_READ completes OK and keeps the
records. ABORT completes BAD_DESCRIPTOR for a bad body and UNSUPPORTED, affecting nothing, for a target that is an ABORT; marks a submitted target not yet accepted and completes OK, at once when it has been fetched, else with its fetch (the model's reading,
log entry 87); ends a
pending stake with ABORTED, out of the table, and completes OK behind it; decides that a RECALL in service stops at its next
stopping point, and completes OK, not released before the recall's completion is; completes ALREADY_DONE when the target has
committed, and NOT_FOUND when it is none of these and not among the last fetched. -/
def Obligations.DescriptorsCompleteAsTheyShould : Prop :=
  (∀ ring s f, Accepts s ring f 0x00 → Answers (.nop ring) s fun t =>
    Finished ring f (if f.zero 0 48 then Status.ok else Status.badDescriptor) s t ∧ t = { s with ctl := t.ctl }) ∧
  (∀ ring s f, s.acceptNext ring = some f → opcodeAssigned f.opcode = false → Answers (.descriptorReserved ring) s fun t =>
    Finished ring f (if memNat (s.ring ring).marked f.sq then Status.aborted else Status.unsupported) s t ∧
    t = { s with ctl := t.ctl }) ∧
  (∀ ring s f, s.acceptNext ring = some f → f.opcode = 0x00 → memNat (s.ring ring).marked f.sq = true →
    Answers (.nop ring) s fun t => Finished ring f Status.aborted s t ∧ t = { s with ctl := t.ctl }) ∧
  (∀ ring s f, s.acceptNext ring = some f → f.opcode = 0x00 → memNat (s.ring ring).marked f.sq = false →
    f.headerOk = false → Answers (.nop ring) s fun t => Finished ring f Status.badDescriptor s t ∧
      t = { s with ctl := t.ctl }) ∧
  (∀ ring s f, Accepts s ring f 0x02 → 1 ≤ f.body 0 1 → f.body 0 1 ≤ 64 → f.body 16 4 % 8 = 0 → 48 * f.body 0 1 ≤ f.body 16 4 →
    f.zero 1 7 = true → f.zero 20 28 = true → f.body 8 8 % 8 = 0 →
    (s.tryShare 7 0 fun t => t.acceptRun ring f fun f t => t.tieRead ring f).isSome = true →
    Answers (.tieRead ring) s fun t => (∃ c : Completion, OutcomeAdded c s t ∧ c.ring = ring ∧
        c.sq = f.sq ∧ c.status = 0x00#8 ∧ c.tag = f.tag ∧
        c.result.take 8 = leBytes 1 (s.ties.take (f.body 0 1)).length ++ List.replicate 7 0) ∧ t.ties = s.ties ∧
      t.spool = ((s.takeHead ring f).hostWrite 7 (f.body 8 8)
        ((s.ties.take (f.body 0 1)).reverse.flatMap fun r => r.bytes)).spool ∧
      SameRegs [Reg.memStat] s t ∧ t.time = s.time ∧ t.hist = s.hist) ∧
  (∀ ring s f, Accepts s ring f 0x01 → (32 ≤ f.body 0 1 ∨ f.zero 1 1 = false ∨ f.zero 4 44 = false) →
    Answers (.abort ring) s fun t => Finished ring f Status.badDescriptor s t ∧ t = { s with ctl := t.ctl }) ∧
  (∀ ring s f, Accepts s ring f 0x01 → f.body 0 1 < 32 → f.zero 1 1 = true → f.zero 4 44 = true →
    (s.takeHead ring f).opcodeOf (f.body 0 1) (f.body 2 2) ≠ some 0x01 →
    (s.takeHead ring f).waitingDesc (f.body 0 1) (f.body 2 2) = true →
    (s.takeHead ring f).unfetched (f.body 0 1) (f.body 2 2) = false → Answers (.abort ring) s fun t =>
      Finished ring f Status.ok s t ∧ f.body 2 2 ∈ (t.ring (f.body 0 1)).marked ∧ t = { s with ctl := t.ctl }) ∧
  (∀ ring s f k, Accepts s ring f 0x01 → f.body 0 1 < 32 → f.zero 1 1 = true → f.zero 4 44 = true →
    (s.takeHead ring f).opcodeOf (f.body 0 1) (f.body 2 2) ≠ some 0x01 →
    (s.takeHead ring f).waitingDesc (f.body 0 1) (f.body 2 2) = false →
    (f.body 2 2, false) ∈ ((s.takeHead ring f).ring (f.body 0 1)).accepted →
    s.stakes.find? (fun k => k.ring == f.body 0 1 && k.sq == f.body 2 2) = some k →
    (∀ q, q ∈ s.dueStakes → ¬ (q.ring = f.body 0 1 ∧ q.sq = f.body 2 2)) → Answers (.abort ring) s fun t =>
      t.stakes = s.stakes.filter (fun q => q.sid != k.sid) ∧
      (∃ c d : Completion, t.outcomes.Perm (s.outcomes ++ [c, d]) ∧ c.ring = k.ring ∧ c.sq = k.sq ∧ c.status = 0x02#8 ∧
        c.tag = k.tag ∧ d.ring = ring ∧ d.sq = f.sq ∧ d.status = 0x00#8 ∧ d.after = some (f.body 0 1, f.body 2 2)) ∧
      t.regs = s.regs ∧ t.brix.arms = s.brix.arms.filter (fun a => a.sid != k.sid) ∧
      t = { s with stakes := t.stakes, ctl := t.ctl, fw := t.fw, brix := t.brix }) ∧
  (∀ ring s f, Accepts s ring f 0x01 → f.body 0 1 < 32 → f.zero 1 1 = true → f.zero 4 44 = true →
    (s.takeHead ring f).opcodeOf (f.body 0 1) (f.body 2 2) ≠ some 0x01 →
    (s.takeHead ring f).waitingDesc (f.body 0 1) (f.body 2 2) = false →
    (f.body 2 2, false) ∉ ((s.takeHead ring f).ring (f.body 0 1)).accepted → Answers (.abort ring) s fun t =>
      Finished ring f (if (f.body 2 2, true) ∈ ((s.takeHead ring f).ring (f.body 0 1)).accepted ∨
          ((s.takeHead ring f).opcodeOf (f.body 0 1) (f.body 2 2)).isSome = true then Status.alreadyDone
        else Status.notFound) s t ∧ t = { s with ctl := t.ctl }) ∧
  (∀ ring s f, Accepts s ring f 0x01 → f.body 0 1 < 32 → f.zero 1 1 = true → f.zero 4 44 = true →
    (s.takeHead ring f).opcodeOf (f.body 0 1) (f.body 2 2) = some 0x01 → Answers (.abort ring) s fun t =>
      Finished ring f Status.unsupported s t ∧ (∀ r, r ≠ ring → (t.ring r).accepted = (s.ring r).accepted) ∧
      (∀ r, (t.ring r).marked = (s.ring r).marked) ∧ t = { s with ctl := t.ctl }) ∧
  (∀ ring s f k, Accepts s ring f 0x01 → f.body 0 1 < 32 → f.zero 1 1 = true → f.zero 4 44 = true →
    (s.takeHead ring f).opcodeOf (f.body 0 1) (f.body 2 2) ≠ some 0x01 →
    (s.takeHead ring f).waitingDesc (f.body 0 1) (f.body 2 2) = false →
    (f.body 2 2, false) ∈ ((s.takeHead ring f).ring (f.body 0 1)).accepted →
    (f.body 0 1, f.body 2 2) ≠ (ring, f.sq) → (∀ k ∈ s.stakes, ¬ (k.ring = f.body 0 1 ∧ k.sq = f.body 2 2)) →
    s.hist.recalls.find? (fun k => k.ring == f.body 0 1 && k.sq == f.body 2 2) = some k → Answers (.abort ring) s fun t =>
      (∃ d : Completion, OutcomeAdded d s t ∧ d ∈ t.ctl.committed ∧ d.ring = ring ∧ d.sq = f.sq ∧ d.status = 0x00#8 ∧
        d.after = some (f.body 0 1, f.body 2 2)) ∧ (f.body 0 1, f.body 2 2) ∈ t.ctl.stopping ∧
      (∀ q ∈ t.hist.recalls, q.rid = k.rid → q.aborted = true) ∧ t.hist.recalls.length = s.hist.recalls.length ∧
      (∀ q ∈ s.hist.recalls, q.rid ≠ k.rid → q ∈ t.hist.recalls) ∧ t = { s with hist := t.hist, ctl := t.ctl }) ∧
  (∀ ring s f, Accepts s ring f 0x01 → f.body 0 1 < 32 → f.zero 1 1 = true → f.zero 4 44 = true →
    (s.takeHead ring f).opcodeOf (f.body 0 1) (f.body 2 2) ≠ some 0x01 →
    (s.takeHead ring f).waitingDesc (f.body 0 1) (f.body 2 2) = true →
    (s.takeHead ring f).unfetched (f.body 0 1) (f.body 2 2) = true → Answers (.abort ring) s fun t =>
      t.ctl.aborts = s.ctl.aborts ++ [⟨ring, f.sq, f.tag, f.body 0 1, f.body 2 2⟩] ∧ t.outcomes = s.outcomes ∧
      (f.sq, false) ∈ (t.ring ring).accepted ∧ f.body 2 2 ∈ (t.ring (f.body 0 1)).marked ∧ t = { s with ctl := t.ctl })

/-- A doorbell of a ring that is ACTIVE or in ERROR moves TAIL or HEAD within its range, and any other one counts in DB_BAD and sets its events.
READ_DATA for no outstanding read is discarded and counted in MSG_DROP. The piece that completes a fetch read of an ACTIVE
ring makes its descriptors wait for acceptance, and a piece that does not complete a read is kept. RSTAT 1 on a fetch read
ends it with RD_FAIL counted, the ring in ERROR and its first descriptor BAD_ADDRESS. An ABORT that waits for the descriptor of a
fetch read completes with it: OK, or UNSUPPORTED when that is an ABORT, whose mark then goes; OK also when the read fails (log
entry 87). A read RD_TMO old is issued again
under its tag, three times, and then fails in the same way; a younger one is left alone. A message that R311 does not admit
only counts. That both causes count a failed read, and that a ring in ERROR with EN = 1 takes doorbells, are the model's readings (log
entry 47). -/
def Obligations.DoorbellsAndHostReads : Prop :=
  (∀ b s r, byteAt b 0 = r → r < 32 → s.ringOn r = true → sub16 (le b 1 2) (s.ring r).fetch ≤ 2 ^ s.sqLog2 r →
    Answers (.doorbell b) s fun t => t.ring r = { s.ring r with tail := le b 1 2 } ∧ (∀ k, k ≠ r → t.ring k = s.ring k) ∧
      t = { s with ctl := { s.ctl with rings := t.ctl.rings } }) ∧
  (∀ b s r, byteAt b 0 = 128 + r → r < 32 → s.ringOn r = true →
    sub16 (le b 1 2) (s.ring r).head ≤ sub16 (s.ring r).write (s.ring r).head → Answers (.doorbell b) s fun t =>
      t.ring r = { s.ring r with head := le b 1 2 } ∧ (∀ k, k ≠ r → t.ring k = s.ring k) ∧
      t = { s with ctl := { s.ctl with rings := t.ctl.rings } }) ∧
  (∀ b s, (s.ringOn (byteAt b 0 % 32) = false ∨ byteAt b 0 / 32 % 4 ≠ 0 ∨
      (byteAt b 0 < 128 ∧ 2 ^ s.sqLog2 (byteAt b 0 % 32) < sub16 (le b 1 2) (s.ring (byteAt b 0 % 32)).fetch) ∨
      (128 ≤ byteAt b 0 ∧ sub16 (s.ring (byteAt b 0 % 32)).write (s.ring (byteAt b 0 % 32)).head <
        sub16 (le b 1 2) (s.ring (byteAt b 0 % 32)).head)) → Answers (.doorbell b) s fun t =>
    t.ctl = { s.ctl with dbBad := satInc 0xFFFF s.ctl.dbBad } ∧ EventSet Reg.ctlStat 2 s t ∧
    EventSet (Reg.ctlRstat (byteAt b 0 % 32)) 25 s t ∧ SameRegs [Reg.ctlStat, Reg.ctlRstat (byteAt b 0 % 32)] s t ∧
    t = { s with ctl := t.ctl, regs := t.regs }) ∧
  (∀ b s, (∀ q, q ∈ s.ctl.reads → q.rtag ≠ le b 0 2) → Answers (.readData b) s fun t =>
    t.ctl = { s.ctl with msgDrop := satInc 0xFFFF s.ctl.msgDrop } ∧ EventSet Reg.ctlStat 1 s t ∧ SameRegs [Reg.ctlStat] s t ∧
    t = { s with ctl := t.ctl, regs := t.regs }) ∧
  (∀ b s q, s.ctl.reads.find? (fun q => q.rtag == le b 0 2) = some q → readDataOk b q.len = true → byteAt b 2 = 0 →
    (q.piece (le b 4 4) (b.drop 8)).full = false → Answers (.readData b) s fun t =>
      t.ctl.reads.map (fun p => p.rtag) = s.ctl.reads.map (fun p => p.rtag) ∧ q.piece (le b 4 4) (b.drop 8) ∈ t.ctl.reads ∧
      (∀ p, p ∈ s.ctl.reads → p.rtag ≠ q.rtag → p ∈ t.ctl.reads) ∧
      t = { s with ctl := { s.ctl with reads := t.ctl.reads } }) ∧
  (∀ b s q r first n ord, s.ctl.reads.find? (fun q => q.rtag == le b 0 2) = some q → readDataOk b q.len = true →
    byteAt b 2 = 0 → (q.piece (le b 4 4) (b.drop 8)).full = true → q.use = .fetch r first n ord → (s.ring r).st = 1 →
    NoAbortWaits s r → Answers (.readData b) s fun t => (∀ i, i < n → ∃ f, f ∈ (t.ring r).fetched ∧ f.sq = (first + i) % 65536 ∧
        f.ord = ord + i ∧ f.bytes = bytesAt (q.piece (le b 4 4) (b.drop 8)).bytes (64 * i) 64) ∧
      (∀ f, f ∈ (s.ring r).fetched → f ∈ (t.ring r).fetched) ∧ t.ctl.reads = s.ctl.reads.filter (fun p => p.rtag != q.rtag) ∧
      t.ctl.committed = s.ctl.committed ∧ (∀ k, k ≠ r → t.ring k = s.ring k) ∧ t = { s with ctl := t.ctl }) ∧
  (∀ b s q r first n ord, s.ctl.reads.find? (fun q => q.rtag == le b 0 2) = some q → readDataOk b q.len = true →
    byteAt b 2 = 1 → q.use = .fetch r first n ord → (s.ring r).st = 1 → NoAbortWaits s r → Answers (.readData b) s fun t =>
      (t.ring r).st = 3 ∧ Committed r first Status.badAddress 0 s t ∧ t.ctl.rdFail = satInc 0xFFFF s.ctl.rdFail ∧
      t.ctl.reads = s.ctl.reads.filter (fun p => p.rtag != q.rtag) ∧ (∀ k, k ≠ r → t.ring k = s.ring k) ∧
      bit (t.reg Reg.ctlStat) 3 = true ∧ bit (t.reg Reg.ctlStat) 4 = true ∧ bit (t.reg (Reg.ctlRstat r)) 24 = true ∧
      SameRegs [Reg.ctlStat, Reg.ctlRstat r] s t ∧ t = { s with ctl := t.ctl, regs := t.regs }) ∧
  (∀ g s q, s.ctl.reads.find? (fun q => q.rtag == g) = some q → s.readLate q = true → q.reissues < 3 → s.canRead = true →
    Answers (.readTimeout g) s fun t => { q with issuedAt := s.time.now, reissues := q.reissues + 1 } ∈ t.ctl.reads ∧
      t.ctl.rdRetry = satInc 0xFFFF s.ctl.rdRetry ∧ t.spool = (s.placeRead q.rtag q.addr q.len).spool ∧
      t.ctl.rings = s.ctl.rings ∧ SameRegs [Reg.memStat] s t ∧ t.time = s.time ∧ t.hist = s.hist) ∧
  (∀ g s q r first n ord, s.ctl.reads.find? (fun q => q.rtag == g) = some q → s.readLate q = true → 3 ≤ q.reissues →
    q.use = .fetch r first n ord → (s.ring r).st = 1 → NoAbortWaits s r → Answers (.readTimeout g) s fun t => (t.ring r).st = 3 ∧
      Committed r first Status.badAddress 0 s t ∧ t.ctl.rdFail = satInc 0xFFFF s.ctl.rdFail ∧
      SameRegs [Reg.ctlStat, Reg.ctlRstat r] s t ∧ t = { s with ctl := t.ctl, regs := t.regs }) ∧
  (∀ g s q, s.ctl.reads.find? (fun q => q.rtag == g) = some q → s.readLate q = false → exec (.readTimeout g) s = .next s) ∧
  (∀ raw s, messageOf raw = none → Answers (.controlMessageDrop raw) s fun t =>
    t.ctl = { s.ctl with msgDrop := satInc 0xFFFF s.ctl.msgDrop } ∧ EventSet Reg.ctlStat 1 s t ∧
    SameRegs [Reg.ctlStat, Reg.splStat] s t ∧ t = { s with ctl := t.ctl, regs := t.regs }) ∧
  (∀ b s q r first ord a, s.ctl.reads.find? (fun q => q.rtag == le b 0 2) = some q → readDataOk b q.len = true →
    byteAt b 2 = 0 → (q.piece (le b 4 4) (b.drop 8)).full = true → q.use = .fetch r first 1 ord → (s.ring r).st = 1 →
    s.ctl.aborts = [a] → a.targetRing = r → a.targetSq = first % 65536 → Answers (.readData b) s fun t =>
      (∃ f ∈ (t.ring r).fetched, f.sq = first % 65536 ∧ Committed a.ring a.sq
        (if f.opcode = 0x01 then Status.unsupported else Status.ok) a.tag s t ∧ (f.opcode = 0x01 → f.sq ∉ (t.ring r).marked)) ∧
      t.ctl.aborts = [] ∧ t = { s with ctl := t.ctl }) ∧
  (∀ b s q r first n ord a, s.ctl.reads.find? (fun q => q.rtag == le b 0 2) = some q → readDataOk b q.len = true →
    byteAt b 2 = 1 → q.use = .fetch r first n ord → (s.ring r).st = 1 → s.ctl.aborts = [a] → a.targetRing = r →
    (s.endRead q.rtag).inFetch r a.targetSq = false → Answers (.readData b) s fun t =>
      (t.ring r).st = 3 ∧ (∃ c d : Completion, t.outcomes.Perm (s.outcomes ++ [c, d]) ∧ c.ring = r ∧ c.sq = first ∧
        c.status = BitVec.ofNat 8 Status.badAddress ∧ d.ring = a.ring ∧ d.sq = a.sq ∧ d.status = 0x00#8 ∧ d.tag = a.tag) ∧
      t.ctl.aborts = [] ∧ SameRegs [Reg.ctlStat, Reg.ctlRstat r] s t ∧ t = { s with ctl := t.ctl, regs := t.regs })

/-- A path that does not serve does nothing. A write to an unmapped address sets UNMAPPED of its path, one to a locked page sets
WR_LOCKED, and neither changes a register; one to a plain register of the TOP_ page beside the lock, the unlock and the
path status takes the word. The low word of a writable 64-bit register goes to the path's shadow and changes no register.
An SPI write of one word is the write of that word; a wrong CMD or address sets SPI_ABORT and does nothing else; a read of
one word drives the word that a read on the SPI path gives. CAPTURE on the SPI and downlink paths takes the time bases into
that path's own capture registers, and on the stake path changes no register and no path. That the form of the row fixes the CMD it takes is the model's reading (log
entry 70). -/
def Obligations.RegisterAccessesOnTheirPaths : Prop :=
  (∀ p a v s, s.served p = false → exec (.registerWrite p a v) s = .next s) ∧
  (∀ p a v s, s.served p = true → p ≠ .stake → regRow a = none → Answers (.registerWrite p a v) s fun t =>
    t = s.setPath p { s.path p with stat := (s.path p).stat ||| 8#5 }) ∧
  (∀ p a v s r, s.served p = true → p ≠ .stake → regRow a = some r → a ≠ Reg.topUnlock → s.pageLocked (a / 0x1000) = true →
    Answers (.registerWrite p a v) s fun t =>
      t = s.setPath p { s.path p with stat := (s.path p).stat ||| 4#5, armed := false }) ∧
  (∀ p a v s r, s.served p = true → regRow a = some r → r.kind = .plain → a < 0x1000 → a ≠ Reg.topUnlock → a ≠ Reg.topLock →
    a ≠ Reg.topPathStat → Answers (.registerWrite p a v) s fun t =>
      Took a (regKey a (s.instOf p r.inst)) v s t ∧ SameRegs [regKey a (s.instOf p r.inst)] s t ∧ t = s.withPaths t) ∧
  (∀ p a v s r, Reaches s p a → regRow a = some r → r.kind = .loRW → Answers (.registerWrite p a v) s fun t =>
    t = s.setPath p { s.path p with shadow := some (a, v), armed := false }) ∧
  (∀ a v s, s.served .spi = true → spiAddrOk a = true → exec (.spiWrite 0x02 a [v] 0) s = exec (.registerWrite .spi a.toNat v) s) ∧
  (∀ cmd a ws n s, s.served .spi = true → (cmd ≠ 0x02#8 ∨ spiAddrOk a = false) → Answers (.spiWrite cmd a ws n) s fun t =>
    t = s.setPath .spi { s.spi with stat := s.spi.stat ||| 16#5 }) ∧
  (∀ cmd a n s, s.served .spi = true → (cmd ≠ 0x03#8 ∨ spiAddrOk a = false) → Answers (.spiRead cmd a n) s fun t =>
    t = s.setPath .spi { s.spi with stat := s.spi.stat ||| 16#5 }) ∧
  (∀ a s, s.served .spi = true → spiAddrOk a = true → Answers (.spiRead 0x03 a 40) s fun t =>
    t.tx = .spiWord ((s.readReg .spi a.toNat).1.getD 0) :: (s.readReg .spi a.toNat).2.tx ∧ SameRegs [Reg.memStat] s t ∧
    t.downlink = s.downlink ∧ t.time = s.time ∧ t.spool = s.spool ∧ t.hist = s.hist) ∧
  (∀ p v s, Reaches s p Reg.timeCapCtl → p ≠ .stake → Answers (.capture p v) s fun t => (t.path p).caps = s.timeBases ∧
    (∀ q, q ≠ p → t.path q = s.path q) ∧ SameRegs [Reg.timeCapCtl] s t ∧ t = s.withPaths t) ∧
  (∀ v s, Reaches s .stake Reg.timeCapCtl → Answers (.capture .stake v) s fun t => t.spi = s.spi ∧ t.downlink = s.downlink ∧
    t.stakePath.caps = s.stakePath.caps ∧ SameRegs [Reg.timeCapCtl] s t ∧ t = s.withPaths t)

/-- A write to TOP_UNLOCK, on the SPI or the downlink path when it serves, arms the path when its KEY [15:0] is 0xC35A and
disarms it otherwise, armed before or not, and does nothing else. A write to TOP_LOCK takes the LOCK bits of the word on an
armed path and only adds them on an unarmed one, and the arm is over. Any other write to a register of the map does what it
does without the arm, and the arm is over. The other path's arm is as before. -/
def Obligations.UnlockArmsAreAsStated : Prop :=
  (∀ p v s, p ≠ .stake → s.served p = true → Answers (.topUnlock p v) s fun t =>
    t = s.setPath p { s.path p with armed := decide (bits v 15 0 = 0xC35A) }) ∧
  (∀ p v s, p ≠ .stake → s.served p = true → (s.path p).armed = true → Answers (.topLockWrite p v) s fun t =>
    t.reg Reg.topLock = v &&& 0x7FFFE ∧ (t.path p).armed = false ∧ SameRegs [Reg.topLock] s t ∧
    (∀ q, q ≠ p → t.path q = s.path q) ∧ t = s.withPaths t) ∧
  (∀ p v s, s.served p = true → (s.path p).armed = false → Answers (.topLockWrite p v) s fun t =>
    t.reg Reg.topLock = s.reg Reg.topLock ||| (v &&& 0x7FFFE) ∧ (t.path p).armed = false ∧ SameRegs [Reg.topLock] s t ∧
    (∀ q, q ≠ p → t.path q = s.path q) ∧ t = s.withPaths t) ∧
  (∀ p a v s r, p ≠ .stake → s.served p = true → regRow a = some r → a ≠ Reg.topUnlock → a ≠ Reg.topLock →
    Answers (.registerWrite p a v) s fun t => (t.path p).armed = false ∧ (∀ q, q ≠ p → (t.path q).armed = (s.path q).armed) ∧
      exec (.registerWrite p a v) (s.setPath p { s.path p with armed := false }) = .next t)

/-- On a downlink that serves, a REG_ACCESS of 8 to 72 bytes with ATAG 0 is performed and nothing is kept of it. One with a
non-zero ATAG that equals a kept message in ATAG and CRC has its stored reply sent again and no register accessed; any other
is performed, and its ATAG, CRC and reply are kept in front of the earlier ones, 16 at most. The reply goes out in class 0
when the share takes it, and counts in REPLY_DROP otherwise (R477). Which bytes the kept CRC covers is the model's choice, no rule of
the spec: R476 says only "body CRC" (log entry 71). -/
def Obligations.RepeatedAccessesAreNotPerformedAgain : Prop :=
  (∀ b s k, s.served .downlink = true → 8 ≤ b.length → b.length ≤ 72 → le b 0 2 ≠ 0 →
    s.ctl.kept.find? (fun k => k.atag == le b 0 2 && k.crc == crc16 (messageBytes 0x03 b)) = some k →
    exec (.regAccessRead b) s = .next (s.sendReply k.reply) ∧ exec (.regAccessWrite b) s = .next (s.sendReply k.reply)) ∧
  (∀ b s, s.served .downlink = true → 8 ≤ b.length → b.length ≤ 72 → le b 0 2 = 0 →
    exec (.regAccessRead b) s = .next ((s.regPerform b).2.sendReply (s.regPerform b).1) ∧
    exec (.regAccessWrite b) s = .next ((s.regPerform b).2.sendReply (s.regPerform b).1)) ∧
  (∀ b s, s.served .downlink = true → 8 ≤ b.length → b.length ≤ 72 → le b 0 2 ≠ 0 →
    (∀ k, k ∈ s.ctl.kept → ¬ (k.atag = le b 0 2 ∧ k.crc = crc16 (messageBytes 0x03 b))) →
    exec (.regAccessRead b) s = exec (.regAccessWrite b) s ∧
    exec (.regAccessWrite b) s = .next (State.sendReply { (s.regPerform b).2 with ctl := { (s.regPerform b).2.ctl with
      kept := (⟨le b 0 2, crc16 (messageBytes 0x03 b), (s.regPerform b).1⟩ :: (s.regPerform b).2.ctl.kept).take 16 } }
      (s.regPerform b).1)) ∧
  (∀ (s : State) r, (s.tryShare 0 0 fun t => t.placeMessage 0x04 r).isSome = true →
    s.sendReply r = s.placeMessage 0x04 r) ∧
  (∀ (s : State) r, (s.tryShare 0 0 fun t => t.placeMessage 0x04 r) = none →
    s.sendReply r = { s with downlink := { s.downlink with replyDrop := satInc 0xFFFF s.downlink.replyDrop } })

/-- A REG_ACCESS that breaks R474 gets RSTATUS 3 and accesses nothing. A WRITE of one word writes it on the downlink path, and
its reply has RSTATUS 1 for an unmapped word, 2 for a locked page and 0 otherwise; a READ of one word replies with that word.
The symbols of a frame always move the disparity of their lane. A downlink in LOS takes no frame. A frame in ACQUIRE only counts
its good or bad run and code errors. On the downlink that is the source of
fast commands a frame whose FC byte fails its test counts in FC_ERR and schedules nothing; one that passes with a command
adds it to those waiting, when its acting crossing lies ahead. -/
def Obligations.AccessRepliesAndDownlinkFrames : Prop :=
  (∀ b (s : State), regAccessOk b = false → s.regPerform b = (b.take 8 ++ leBytes 1 3 ++ leBytes 3 0 ++
    leBytes 4 (s.pathStat .downlink).toNat, s)) ∧
  (∀ b s, s.served .downlink = true → regAccessOk b = false → 8 ≤ b.length → b.length ≤ 72 → le b 0 2 = 0 →
    Answers (.regAccessRead b) s fun t => SameRegs [Reg.memStat] s t ∧ t.time = s.time ∧ t.hist = s.hist ∧ t.spi = s.spi) ∧
  (∀ b (s : State), regAccessOk b = true → byteAt b 2 = 2 → byteAt b 3 = 1 →
    (s.regPerform b).2 = s.writeReg .downlink (le b 4 4) (BitVec.ofNat 32 (le b 8 4)) ∧
    byteAt (s.regPerform b).1 8 = (if regRow (le b 4 4) = none then 1
      else if le b 4 4 ≠ Reg.topUnlock ∧ s.pageLocked (le b 4 4 / 0x1000) = true then 2 else 0)) ∧
  (∀ b (s : State), regAccessOk b = true → byteAt b 2 = 1 → byteAt b 3 = 1 → (s.regPerform b).2 = (s.readReg .downlink (le b 4 4)).2 ∧
    byteAt (s.regPerform b).1 8 = (if regRow (le b 4 4) = none then 1 else 0) ∧
    (s.regPerform b).1.drop 16 = leBytes 4 ((s.readReg .downlink (le b 4 4)).1.getD 0).toNat) ∧
  (∀ dl syms frac s, (s.rx (dlLane dl)).stat = .los → exec (.downlinkFrame dl ⟨syms, frac⟩) s = .next (s.setRx (dlLane dl)
    { s.rx (dlLane dl) with rd := disparityOf (s.rx (dlLane dl)).rd (symbolsOf 12 syms) })) ∧
  (∀ dl syms frac s f, f = dlDecode (s.rx (dlLane dl)).rd syms frac → (s.rx (dlLane dl)).stat = .acquire →
    Answers (.downlinkFrame dl ⟨syms, frac⟩) s fun t => (t.rx (dlLane dl)).stat = .acquire ∧
    (t.rx (dlLane dl)).rd = disparityOf (s.rx (dlLane dl)).rd (symbolsOf 12 syms) ∧
    (t.rx (dlLane dl)).goodRun = (if f.comma = .bad then 0 else (s.rx (dlLane dl)).goodRun + 1) ∧
    (t.rx (dlLane dl)).codeErr = min 0xFFFF ((s.rx (dlLane dl)).codeErr + f.codeErrs) ∧
    t = s.setRx (dlLane dl) (t.rx (dlLane dl))) ∧
  (∀ dl syms frac s f, f = dlDecode (s.rx (dlLane dl)).rd syms frac → (s.rx (dlLane dl)).stat = .up → s.fcDl = some dl →
    (s.ctlDl = some dl → s.ctl.frames = [] ∧ f.ctl.head? = some (some 0) ∧ f.comma ≠ .bad) →
    fcPasses f.comma f.fc f.fchk f.fcErr = false →
    (s.rx (dlLane dl)).badRun < 2 → ((f.codeErrs :: (s.rx (dlLane dl)).errs).take 64).foldl (· + ·) 0 < 16 →
    f.comma ≠ .k281 → Answers (.downlinkFrame dl ⟨syms, frac⟩) s fun t => t.time.fcQueue = s.time.fcQueue ∧
      bits (t.reg Reg.lnkFcErr) 15 0 = satInc 0xFFFF (bits (s.reg Reg.lnkFcErr) 15 0) ∧ EventSet Reg.lnkStat 4 s t ∧
      SameRegs [Reg.lnkFcErr, Reg.lnkStat] s t ∧ t.ctl = s.ctl ∧ t.trig = s.trig) ∧
  (∀ dl syms frac s f x, f = dlDecode (s.rx (dlLane dl)).rd syms frac → (s.rx (dlLane dl)).stat = .up → s.fcDl = some dl →
    (s.ctlDl = some dl → s.ctl.frames = [] ∧ f.ctl.head? = some (some 0) ∧ f.comma ≠ .bad) →
    fcPasses f.comma f.fc f.fchk f.fcErr = true → f.fc ≠ 0 → f.comma = .k285 → (s.rx (dlLane dl)).masterX = some x →
    x + 1 < s.n → 0 < s.fcAhead (x + 1) → ((f.codeErrs :: (s.rx (dlLane dl)).errs).take 64).foldl (· + ·) 0 < 16 →
    Answers (.downlinkFrame dl ⟨syms, frac⟩) s fun t =>
      t.time.fcQueue = s.time.fcQueue ++ [⟨s.time.now + (s.fcAhead (x + 1)).toNat, f.fc⟩] ∧
      bits (t.reg Reg.lnkFcErr) 15 0 = bits (s.reg Reg.lnkFcErr) 15 0 ∧ SameRegs [Reg.lnkFcErr, Reg.lnkStat] s t ∧
      t.ctl = s.ctl ∧ t.trig = s.trig)
/-- The symbols of a Brix frame always move the disparity of their lane. A lane in LOS takes no frame and one in ACQUIRE only
counts; an UP one of a hub that is in the ring, is no head and takes neither time nor commands from it passes the frame on out
of its other port, while that lane is UP, with HOPS raised by 1, at most 7, DL_OK cleared when the FC byte fails its test, and
the slots of that port. A packet in progress for this hub that ends with its lane is discarded and counted (the model's reading for
a packet cut short, log entry 88), one that only passes is not. A RING_ROUTE for another position does nothing at a hub outside the ring and is placed in the stream by
a head; a repeated RSEQ only counts. HOP_REPORT gives its port's link delay from the four stamps at a hub in the ring,
HUB_STATUS is kept as the latest of its position, which leaves the admit cycle (a change that the active head mirrors), RING_MAP is kept with its orbit and sets TOPO_EVT when the bypassed positions
change. A MIRROR waits while E7 restarts; at a hub without a role it is only noted; at the active head a board operation
already committed changes nothing; at a standby the next version of the admit cycle is applied, a missed version makes it ask for
a base copy (an outcome that it brings is kept all the same), and the last piece of a base copy makes it whole. A completion for one
of this head's rings is committed beside the descriptor's own. The layout of a MIRROR body and the rounding of LINK are the model's
choice (log entries 25 and 8). -/
def Obligations.RingFramesAndMessages : Prop :=
  (∀ pt syms frac s, (s.rx (portRx pt)).stat = .los → exec (.brixFrame pt ⟨syms, frac⟩) s = .next (s.setRx (portRx pt)
    { s.rx (portRx pt) with rd := disparityOf (s.rx (portRx pt)).rd (symbolsOf 10 syms) })) ∧
  (∀ pt syms frac s f, f = brixDecode (s.rx (portRx pt)).rd syms frac → (s.rx (portRx pt)).stat = .acquire →
    Answers (.brixFrame pt ⟨syms, frac⟩) s fun t => (t.rx (portRx pt)).stat = .acquire ∧
    (t.rx (portRx pt)).rd = disparityOf (s.rx (portRx pt)).rd (symbolsOf 10 syms) ∧
    (t.rx (portRx pt)).goodRun = (if f.comma = .bad then 0 else (s.rx (portRx pt)).goodRun + 1) ∧
    (t.rx (portRx pt)).codeErr = min 0xFFFF ((s.rx (portRx pt)).codeErr + f.codeErrs) ∧
    t = s.setRx (portRx pt) (t.rx (portRx pt))) ∧
  (∀ pt syms frac s f x, f = brixDecode (s.rx (portRx pt)).rd syms frac → (s.rx (portRx pt)).stat = .up →
    s.brix.bypassOpen = true → s.isHead = false → s.refSel < 2 → s.headRef = false → f.comma = .k285 →
    (∀ c, c ∈ f.slots → c = .data 0) → (s.rx (portRx pt)).slotBuf = none → (s.rx (portRx pt)).masterX = some x → x + 1 ≠ s.frameOrbit x →
    ((f.codeErrs :: (s.rx (portRx pt)).errs).take 64).foldl (· + ·) 0 < 16 → Answers (.brixFrame pt ⟨syms, frac⟩) s fun t =>
      ((s.lane (portLane (otherPort pt))).st = .up →
        Sent (portLane (otherPort pt)) (.brixFrame ([k28_5, .d f.fc, .d f.fchk,
          .d (BitVec.ofNat 8 (f.rhdr.toNat % 8 + 8 * min 7 (f.rhdr.toNat / 8 % 8 + 1)) &&&
            (if fcPasses f.comma f.fc f.fchk f.headErr then 0xFF else 0xFB))] ++
          (PortTx.slots false 6 (s.portTx (otherPort pt))).1)) s t) ∧
      ((s.lane (portLane (otherPort pt))).st ≠ .up → t.tx = s.tx ∧ t.txLanes = s.txLanes) ∧
      (t.portTx (otherPort pt)).x = some (x + 1) ∧ t.portTx pt = s.portTx pt ∧ t.regs = s.regs ∧ t.time = s.time ∧
      t.ctl = s.ctl ∧ t.mem = s.mem ∧ t.hist = s.hist ∧ t.spool = s.spool) ∧
  (∀ b s, s.routeHere b = false → s.brix.bypassOpen = false → exec (.ringRoute b) s = .next s) ∧
  (∀ b s, s.routeHere b = false → s.brix.bypassOpen = true → s.isHead = true → Answers (.ringRoute b) s fun t =>
    t.tx = .brixMessage (some s.streamOut) 0x40 b :: s.tx ∧
    (t.portTx s.streamOut).own = (s.portTx s.streamOut).own ++ [ringBytes 0x40 b] ∧
    t.portTx s.mirrorPort = s.portTx s.mirrorPort ∧ t = { s with brix := t.brix, tx := t.tx }) ∧
  (∀ b s, s.routeHere b = true → s.brix.bypassOpen = false → le b 2 2 ∈ s.brix.rseqs → Answers (.ringRoute b) s fun t =>
    t = { s with brix := { s.brix with rseqDup := satInc 0xFFFF s.brix.rseqDup } }) ∧
  (∀ b s t4, s.brix.bypassOpen = true → s.arrivalStamp .p = some t4 → Answers (.hopReport .p b) s fun t =>
    t.brix.linkP = roundHalfIn (s.stampDiff (le b 8 8) s.brix.t1P + s.stampDiff t4 (le b 16 8) +
      sext 16 (s.reg Reg.brxAsymP).toNat) 2 ∧ t.brix.linkPAt = some s.time.orbit ∧ t.brix.linkQ = s.brix.linkQ ∧
    SameRegs [Reg.timeStat] s t ∧ t = { s with brix := t.brix, regs := t.regs }) ∧
  (∀ b s t4, s.brix.bypassOpen = true → s.arrivalStamp .q = some t4 → Answers (.hopReport .q b) s fun t =>
    t.brix.linkQ = roundHalfIn (s.stampDiff (le b 8 8) s.brix.t1Q + s.stampDiff t4 (le b 16 8) +
      sext 16 (s.reg Reg.brxAsymQ).toNat) 2 ∧ t.brix.linkQAt = some s.time.orbit ∧ t.brix.linkP = s.brix.linkP ∧
    SameRegs [Reg.timeStat] s t ∧ t = { s with brix := t.brix, regs := t.regs }) ∧
  (∀ pt b s, (s.brix.bypassOpen = false ∨ s.arrivalStamp pt = none) → exec (.hopReport pt b) s = .next s) ∧
  (∀ pt b s p, byteAt b 0 = p → p < 8 → p ≠ s.position → Answers (.hubStatus pt b) s fun t => t.posPresent p = true ∧
    p ∉ t.brix.admits ∧ (∀ q, q ≠ p → t.posPresent q = s.posPresent q) ∧ t.brix.ringMap = s.brix.ringMap ∧
    (s.brix.role ≠ .active ∨ p ∉ s.brix.admits → t.tx = s.tx) ∧
    (s.brix.role = .active → p ∈ s.brix.admits → s.brix.bypassOpen = true → s.engineUp 7 = true → s.brix.mirrorOut = [] →
      ∃ pt, t.tx = .brixMessage pt 0x44 (mirrorBody 1 1 t.brix.mirrorVer s.time.orbit t.admitData) :: s.tx) ∧
    SameRegs [Reg.timeStat] s t ∧ t = { s with brix := t.brix, regs := t.regs, tx := t.tx }) ∧
  (∀ pt b s, 8 ≤ byteAt b 0 → exec (.hubStatus pt b) s = .next s) ∧
  (∀ pt b s, Answers (.ringMap pt b) s fun t => t.brix = { s.brix with ringMap := some (b, s.time.orbit), leaveOrbit := s.releaseIn b } ∧
    (∀ o x, s.brix.ringMap = some (o, x) → byteAt o 3 ≠ byteAt b 3 → EventSet Reg.brxStat 18 s t) ∧
    ((∀ o x, s.brix.ringMap = some (o, x) → byteAt o 3 = byteAt b 3) → t.regs = s.regs) ∧ SameRegs [Reg.brxStat] s t ∧
    t = { s with brix := t.brix, regs := t.regs }) ∧
  (∀ b s, (s.engine 7).restarting = true → Answers (.mirror b) s fun t =>
    t = { s with brix := { s.brix with mirrorSeen := true, heldIn := s.brix.heldIn ++ [(0x44, b)] } }) ∧
  (∀ b s, (s.engine 7).restarting = false → s.brix.role = .none → byteAt b 0 ≠ 7 → Answers (.mirror b) s fun t =>
    t = { s with brix := { s.brix with mirrorSeen := true } }) ∧
  (∀ b s o, (s.engine 7).restarting = false → s.brix.role = .active → byteAt b 0 = 2 → o ∈ s.brix.ops →
    o.bseq = le (b.drop 16) 8 4 → Answers (.mirror b) s fun t =>
      t = { s with brix := { s.brix with mirrorSeen := true } }) ∧
  (∀ b s, (s.engine 7).restarting = false → s.brix.role = .standby → s.brix.baseApplied = true → byteAt b 0 = 1 →
    byteAt b 1 = 1 → le b 4 4 = (s.brix.mirrorVer + 1) % 2 ^ 32 → Answers (.mirror b) s fun t =>
      (∀ p, p ∈ t.brix.admits ↔ p < 8 ∧ Nat.testBit (byteAt (b.drop 16) 0) p = true) ∧
      t.brix.admitNext = byteAt (b.drop 16) 1 ∧ t.brix.mirrorVer = le b 4 4 ∧ t.brix.role = .standby ∧
      t.brix.ops = s.brix.ops ∧ t.brix.waits = s.brix.waits ∧ t = { s with brix := t.brix }) ∧
  (∀ b s, (s.engine 7).restarting = false → s.brix.role = .standby → s.brix.baseApplied = true → byteAt b 0 = 1 →
    byteAt b 1 ≠ 3 → le b 4 4 ≠ (s.brix.mirrorVer + 1) % 2 ^ 32 → le b 4 4 ≠ s.brix.mirrorVer → Answers (.mirror b) s fun t =>
      t.brix.wantBase = true ∧ t.brix.mirrorVer = s.brix.mirrorVer ∧ t.brix.admits = s.brix.admits ∧
      t.brix.ops = s.brix.ops ∧ t = { s with brix := t.brix, tx := t.tx }) ∧
  (∀ b s, (s.engine 7).restarting = false → s.brix.role = .standby → byteAt b 0 = 4 → byteAt b 1 = 15 →
    Answers (.mirror b) s fun t => t.brix.baseApplied = true ∧ t.brix.wantBase = false ∧ t.brix.mirrorVer = le b 4 4 ∧
      t.brix.closeFrom = some (s.brix.closeFrom.getD (nextOrbit s.time.orbit)) ∧ t.brix.ops = s.brix.ops ∧ t.brix.sync = s.brix.sync ∧
      t = { s with brix := t.brix }) ∧
  (∀ b s, (s.engine 7).restarting = false → byteAt b 0 = 7 → byteAt (b.drop 16) 0 < 32 → Answers (.mirror b) s fun t =>
    (∃ c : Completion, OutcomeAdded c s t ∧ c.ring = byteAt (b.drop 16) 0 ∧ c.sq = le (b.drop 16) 2 2 ∧
      c.status.toNat = byteAt (b.drop 16) 1 ∧ c.extra = true) ∧ t.ctl.rings = s.ctl.rings ∧
    t = { s with ctl := t.ctl, brix := { s.brix with mirrorSeen := true } }) ∧
  (∀ b s, (s.engine 7).restarting = false → s.brix.role = .standby → byteAt b 0 = 1 → byteAt b 1 = 3 →
    (s.brix.baseApplied = false ∨ (le b 4 4 ≠ (s.brix.mirrorVer + 1) % 2 ^ 32 ∧ le b 4 4 ≠ s.brix.mirrorVer)) →
    (∀ o ∈ s.brix.ops, o.bseq ≠ le (b.drop 16) 0 4) → s.brix.waits = [] → Answers (.mirror b) s fun t =>
      (∃ o : BoardOp, t.brix.ops = (o :: s.brix.ops).take 64 ∧ o.bseq = le (b.drop 16) 0 4 ∧
        o.status.toNat = byteAt (b.drop 16) 4) ∧
      (s.brix.baseApplied = true → t.brix.wantBase = true) ∧ t.brix.mirrorVer = s.brix.mirrorVer ∧
      t.ctl = s.ctl ∧ t = { s with brix := t.brix, tx := t.tx }) ∧
  (∀ pt sig s l, (s.rx (portRx pt)).stat = .up → (s.rx (portRx pt)).slotBuf = some l → s.passesOn (s.rx (portRx pt)) = false →
    Answers (.receiveLaneDown ⟨portRx pt, sig⟩) s fun t => t.ctl.msgDrop = satInc 0xFFFF s.ctl.msgDrop ∧
      bit (t.reg Reg.ctlStat) 1 = true ∧ (t.rx (portRx pt)).slotBuf = none) ∧
  (∀ pt sig s l, (s.rx (portRx pt)).stat = .up → (s.rx (portRx pt)).slotBuf = some l → s.passesOn (s.rx (portRx pt)) = true →
    l.head? ≠ some 0x42 → l.head? ≠ some 0x43 → Answers (.receiveLaneDown ⟨portRx pt, sig⟩) s fun t =>
      t.ctl.msgDrop = s.ctl.msgDrop ∧ t.reg Reg.ctlStat = s.reg Reg.ctlStat ∧ (t.rx (portRx pt)).slotBuf = none)

/-- At crossing N − G a listening ring member in phase JOIN or RUN that the map names, or a head without a map, opens its
bypass: a head starts as STANDBY, any other hub without a role, TOPO_EVT is set, both receive lanes with a signal acquire anew
and both transmit lanes train from step 0, and phase JOIN ends in RUN. Away from N − G nothing happens. A write to BRX_LEAVE with
LEAVE = 1, on a path that serves and with the page unlocked, makes a hub in the ring leave, and one outside it stays as it
is. -/
def Obligations.BypassOpensAndHubsLeave : Prop :=
  (∀ s, s.atGap = true → s.scan ≠ .extest → s.brixState = 1 → s.ringMember = true → (s.power.phase = .join ∨ s.power.phase = .run) →
    (s.admitted = true ∨ s.noMap = true) → Answers .bypassOpen s fun t => t.brix.bypassOpen = true ∧ t.brix.leaving = false ∧
      t.brix.role = (if s.isHead then .standby else .none) ∧ t.brix.sync = false ∧ bit (t.reg Reg.brxStat) 18 = true ∧
      t.brixP.stat = (if s.brixP.stat = .los then .los else .acquire) ∧
      t.brixQ.stat = (if s.brixQ.stat = .los then .los else .acquire) ∧ (t.lane 32).st = .acquire ∧ (t.lane 32).step = 0 ∧
      (t.lane 33).st = .acquire ∧ (t.lane 33).step = 0 ∧ (∀ n, n < 32 → t.lane n = s.lane n) ∧ t.power.phase = .run ∧
      t.hist = s.hist ∧ t.mem = s.mem ∧ t.spool = s.spool ∧ t.time.now = s.time.now ∧ (s.refSel ≠ 2 → t.time = s.time)) ∧
  (∀ s, s.atGap = false → exec .bypassOpen s = .next s) ∧
  (∀ p v s, Reaches s p Reg.brxLeave → Answers (.leave p v) s fun t =>
    t.brix = (if s.brix.bypassOpen then { s.brix with leaving := true } else s.brix) ∧ SameRegs [Reg.brxLeave] s t ∧
    t = State.withPaths { s with brix := t.brix } t)

/-- A STANDBY head of the ring that has had no ACT frame on either port for 16 crossings becomes ACTIVE, with its event, and
commits a board operation that waited; head B that is ACTIVE and sees 16 ACT frames in a row sets SPLIT_EVT, and is STANDBY from the
next N − G on, with ROLE_EVT, unless a swap or its leaving falls there too. A ROLE ARM message is kept as the partner's arm, or waits while E7 restarts. The ACTIVE head decides once, at most 32
crossings before the target, and tells the partner from 24 crossings before it on; the STANDBY takes the decision for its own
arm. At the target a decision to swap changes the role and the stake completes OK with the Datum; with none, a head that is
not ACTIVE keeps its role and the stake completes NOT_FOUND; during a restart of E7, a switch of images at the same target among them,
it completes LATE. The swap's arms are over. When the decision is made and told, what the STANDBY makes of a decision not to swap, and
when a head takes the other to be in SYNC, are the model's readings (log entries 79 and 26). -/
def Obligations.RolesChangeAsStated : Prop :=
  (∀ s, s.isHead = true → s.brix.bypassOpen = true → s.brix.role = .standby → 16 ≤ s.brixP.sinceAct → 16 ≤ s.brixQ.sinceAct →
    Answers .roleTakeover s fun t => t.brix.role = .active ∧ EventSet Reg.brxStat 16 s t ∧
      SameRegs [Reg.brxStat, Reg.memStat] s t ∧ t.brix.baseApplied = true ∧
      (s.brix.waits = [] → t.brix = { s.brix with
        role := .active, blameRun := 0, baseApplied := true, wantBase := false
        closeFrom := some (s.brix.closeFrom.getD (nextOrbit s.time.orbit)), sync := false } ∧
        t = { s with brix := t.brix, regs := t.regs }) ∧
      (∀ w, s.brix.waits = [w] → w.opcode = 0x61 → (∀ o, o ∈ s.brix.ops → o.bseq ≠ w.bseq) → t.brix.waits = [] ∧
        ∃ o : BoardOp, t.brix.ops = (o :: s.brix.ops).take 64 ∧ o.bseq = w.bseq) ∧
      t.time = s.time ∧ t.hist = s.hist) ∧
  (∀ s, (s.brixP.sinceAct < 16 ∨ s.brixQ.sinceAct < 16) → exec .roleTakeover s = .next s) ∧
  (∀ s, s.isHead = true → s.position = 1 → s.brix.role = .active → (16 ≤ s.brixP.actRun ∨ 16 ≤ s.brixQ.actRun) →
    s.brix.splitAtGap = false → Answers .split s fun t => t.brix = { s.brix with splitAtGap := true } ∧
      EventSet Reg.brxStat 21 s t ∧ SameRegs [Reg.brxStat] s t ∧ t = { s with brix := t.brix, regs := t.regs }) ∧
  (∀ b s, (s.engine 7).restarting = false → Answers (.roleArm b) s fun t => (∃ a : Arm, a ∈ t.brix.partnerArms ∧
      a.newActive = byteAt b 1 ∧ a.bseq = le b 4 4 ∧ a.target.toNat = le b 8 8) ∧
    (∀ a, a ∈ s.brix.partnerArms → a ∈ t.brix.partnerArms) ∧
    t = { s with brix := { s.brix with partnerArms := t.brix.partnerArms } }) ∧
  (∀ b s, (s.engine 7).restarting = true → Answers (.roleArm b) s fun t =>
    t = { s with brix := { s.brix with heldIn := s.brix.heldIn ++ [(0x46, b)] } }) ∧
  (∀ s a, s.armToDecide = some a → s.brix.role = .active → Answers .roleSwapDecide s fun t =>
    0 ≤ s.armDistance a ∧ s.armDistance a ≤ 32 ∧ a.decided = none ∧
    t.brix.arms = s.brix.arms.map (fun b => if b.sid = a.sid then { a with decided := some (s.swapOutcome a) } else b) ∧
    t = { s with brix := { s.brix with arms := t.brix.arms } }) ∧
  (∀ s, (s.armToDecide = none ∨ s.brix.role ≠ .active) → exec .roleSwapDecide s = .next s) ∧
  (∀ (s : State) a o, s.brix.bypassOpen = true → s.brix.role = .active → s.brix.arms = [a] → a.decided = some o →
    a.told = false → s.armDistance a ≤ 24 →
    (∃ pt, s.tellDecision.tx = .brixMessage pt 0x46 (roleBody 2 a.newActive (if o.1 then 1 else 0) a.bseq a.target.toNat) ::
      s.tx) ∧ s.tellDecision.brix.arms = [{ a with told := true }]) ∧
  (∀ (s : State) a, (s.engine 7).restarting = false → s.brix.partnerArms.any a.same = true → s.standbySync = true →
    s.newIsActive a.newActive = false → s.swapOutcome a = (true, 0x00)) ∧
  (∀ (s : State) a, (s.engine 7).restarting = false → s.brix.partnerArms.any a.same = false →
    s.swapOutcome a = (false, 0x03)) ∧
  (∀ b s a, (s.engine 7).restarting = false →
    s.brix.arms.find? (fun a => le b 4 4 == a.bseq && le b 8 8 == a.target.toNat) = some a → s.brix.role = .standby →
    byteAt b 2 = 1 → Answers (.decide b) s fun t =>
      t.brix.arms = s.brix.arms.map (fun c => if c.sid = a.sid then { a with decided := some (true, 0x00#8) } else c) ∧
      t = { s with brix := { s.brix with arms := t.brix.arms } }) ∧
  (∀ s k a, s.dueStake 0x08 = some k → (s.engine 7).restarting = false → s.switchAt k = false →
    s.brix.arms.find? (fun a => a.sid == k.sid) = some a → a.decided = some (true, 0x00) → s.brix.role ≠ .none →
    Answers .roleSwap s fun t => t.brix.role = s.brix.role.other ∧ (∀ b, b ∈ t.brix.arms → b.sid ≠ k.sid) ∧
      (∀ b, b ∈ t.brix.partnerArms → a.same b = false) ∧ EventSet Reg.brxStat 16 s t ∧
      SameRegs [Reg.brxStat, Reg.memStat] s t ∧ t.stakes = s.stakes.filter (fun q => q.sid != k.sid) ∧
      ((s.brix.role = .active ∨ s.brix.waits = []) → ∃ c : Completion, OutcomeAdded c s t ∧ c.ring = k.ring ∧ c.sq = k.sq ∧
        c.tag = k.tag ∧ c.status = 0x00 ∧ c.result = leBytes 8 s.datum ++ leBytes 8 0) ∧ t.time = s.time ∧ t.hist = s.hist) ∧
  (∀ s k a, s.dueStake 0x08 = some k → (s.engine 7).restarting = false → s.switchAt k = false →
    s.brix.arms.find? (fun a => a.sid == k.sid) = some a → a.decided = none → s.brix.role ≠ .active →
    Answers .roleSwap s fun t => t.brix.role = s.brix.role ∧ (∀ b, b ∈ t.brix.arms → b.sid ≠ k.sid) ∧
      StakeEnded k Status.notFound s t ∧ t.regs = s.regs ∧ t.time = s.time ∧ t.mem = s.mem) ∧
  (∀ s k, s.dueStake 0x08 = some k → ((s.engine 7).restarting = true ∨ s.switchAt k = true) → Answers .roleSwap s fun t =>
    t.brix.role = s.brix.role ∧ StakeEnded k Status.late s t ∧ SameRegs [Reg.timeStakeStat] s t ∧ t.time = s.time ∧
    t.mem = s.mem) ∧
  (∀ b s a, (s.engine 7).restarting = false →
    s.brix.arms.find? (fun a => le b 4 4 == a.bseq && le b 8 8 == a.target.toNat) = some a → s.brix.role = .standby →
    byteAt b 2 ≠ 1 → Answers (.decide b) s fun t => ∃ st,
      ((s.brix.partnerArms.any a.same = false ∨ s.brix.sync = false) → st = Status.notFound) ∧
      (s.brix.partnerArms.any a.same = true → s.brix.sync = true → s.newIsActive a.newActive = true → st = Status.ok) ∧
      (s.brix.partnerArms.any a.same = true → s.brix.sync = true → s.newIsActive a.newActive = false → st = Status.late) ∧
      t.brix.arms = s.brix.arms.map (fun c => if c.sid = a.sid then { a with decided := some (false, BitVec.ofNat 8 st) } else c) ∧
      t = { s with brix := { s.brix with arms := t.brix.arms } }) ∧
  (∀ b s, (s.engine 7).restarting = false →
    (s.brix.role ≠ .standby ∨ s.brix.arms.find? (fun a => le b 4 4 == a.bseq && le b 8 8 == a.target.toNat) = none) →
    exec (.decide b) s = .next s) ∧
  (∀ s : State, s.past .fuse = true → s.atGap = true → s.time.gapStartAt ≠ some s.time.now → s.dueStakes = [] →
    (s.time.fcQueue.any fun e => e.act == s.time.now && 8 ≤ e.fc.toNat) = false → s.offlineOverdue = false →
    s.brix.splitAtGap = true → s.brix.swapAtGap = false → s.brix.leaving = false → s.brix.leaveOrbit = none →
    Answers .gapStart s fun t => t.brix.role = .standby ∧ t.brix.splitAtGap = false ∧
      (s.brix.role ≠ .standby → bit (t.reg Reg.brxStat) 16 = true ∧ t.brix.sync = false) ∧
      t.brix.bypassOpen = s.brix.bypassOpen ∧ t.brix.arms = s.brix.arms ∧ t.brix.ops = s.brix.ops ∧
      t.brix.waits = s.brix.waits)

/-- From crossing 16 on, with E7 in service, a head that forms digests forms the one of the orbit just ended and sends it, once.
A CLOSURE message for an orbit whose own digest is held and not yet compared is a match when the digests are equal, and raises
the run of matches; or a mismatch, which ends it, is counted and attributed from the evidence, and sets its event. One for an
orbit without an own digest is kept only, and one that comes while E7 restarts waits. An own digest two orbits old that nothing
has answered is MISSING, which is neither. -/
def Obligations.ClosureComparesDigests : Prop :=
  (∀ s k e l, s.brix.ended = (k, e) :: l → s.closes k = true → s.engineUp 7 = true → 16 ≤ s.time.cross → nextOrbit k = s.time.orbit →
    s.brix.closureSent ≠ some k → Answers .closureSend s fun t => t.brix.closureSent = some k ∧
      (k, s.digestOf k, e) ∈ t.brix.digests ∧
      (∃ pt, t.tx = .brixMessage pt 0x45 (leBytes 8 k ++ leBytes 4 (s.digestOf k).toNat ++ [e] ++ leBytes 3 0) :: s.tx) ∧
      ((∀ d, d ∈ s.brix.partnerDigests → d.1 ≠ k) → t.regs = s.regs ∧ t.brix.closureRun = s.brix.closureRun ∧
        t.brix.mismatches = s.brix.mismatches) ∧ t.brix.role = s.brix.role ∧ SameRegs [Reg.brxStat] s t ∧
      t = { s with brix := t.brix, tx := t.tx, regs := t.regs }) ∧
  (∀ s, (s.brix.ended = [] ∨ s.brix.ended.head?.map Prod.fst = s.brix.closureSent) →
    exec .closureSend s = .next s) ∧
  (∀ b s, (s.engine 7).restarting = true → Answers (.closure b) s fun t =>
    t = { s with brix := { s.brix with heldIn := s.brix.heldIn ++ [(0x45, b)] } }) ∧
  (∀ b s k e, (s.engine 7).restarting = false → s.brix.digests.find? (fun p => p.1 == le b 0 8) = some (k, BitVec.ofNat 32 (le b 8 4), e) →
    le b 0 8 ∉ s.brix.compared → Answers (.closure b) s fun t => t.brix.lastMatch = true ∧
      t.brix.closureRun = satInc 0xFF s.brix.closureRun ∧ t.brix.syncRun = s.brix.syncRun + 1 ∧
      t.brix.mismatches = s.brix.mismatches ∧ le b 0 8 ∈ t.brix.compared ∧
      (t.brix.sync = true ↔ s.brix.sync = true ∨ (s.brix.role = .standby ∧ s.brix.baseApplied = true ∧ 3 ≤ s.brix.syncRun)) ∧
      t.brix.role = s.brix.role ∧ t = { s with brix := t.brix }) ∧
  (∀ b s k d e, (s.engine 7).restarting = false → s.brix.digests.find? (fun p => p.1 == le b 0 8) = some (k, d, e) → d ≠ BitVec.ofNat 32 (le b 8 4) →
    le b 0 8 ∉ s.brix.compared → Answers (.closure b) s fun t => t.brix.lastMatch = false ∧ t.brix.closureRun = 0 ∧
      t.brix.mismatches = satInc 0xFFFF s.brix.mismatches ∧ t.brix.mismatchOrbit = le b 0 8 ∧
      t.brix.attrib = (if s.position = 0 then attribOf e (BitVec.ofNat 8 (byteAt b 12))
        else attribOf (BitVec.ofNat 8 (byteAt b 12)) e) ∧ EventSet Reg.brxStat 17 s t ∧ SameRegs [Reg.brxStat] s t ∧
      t.brix.role = s.brix.role ∧ t = { s with brix := t.brix, regs := t.regs }) ∧
  (∀ b s, (s.engine 7).restarting = false → s.brix.digests.find? (fun p => p.1 == le b 0 8) = none → Answers (.closure b) s fun t =>
    t = { s with brix := { s.brix with partnerDigests := t.brix.partnerDigests } }) ∧
  (∀ s k, s.missingOrbit = some k → Answers .closureMissing s fun t => t.brix.missing = true ∧ k ∈ t.brix.compared ∧
    2 ≤ orbitDiff s.time.orbit k ∧ t.brix.closureRun = s.brix.closureRun ∧ t.brix.mismatches = s.brix.mismatches ∧
    t = { s with brix := t.brix })

/-- A board operation completes UNSUPPORTED at a hub that is no head, BAD_DESCRIPTOR with a BSEQ of 0, and with the stored
outcome when its BSEQ has committed before; at a STANDBY it waits and is sent whole to the other head. On the ACTIVE head
RING_TABLE writes its 256 bytes and completes OK, RING_ADMIT notes bypassed positions and completes OK, or NOT_FOUND when one is
not bypassed, and RING_RELEASE of another position that is present, two orbits ahead or more, names it in the map (the first release pending is the one named) and waits; the release is mirrored, and the
outcome of each operation that completes there is kept under its BSEQ and mirrored, at once where no MIRROR waits. The layout of
a MIRROR body, and that a position which is not present counts as bypassed, are the model's choice (log entries 25 and 26). -/
def Obligations.BoardOperationsOnTheHeads : Prop :=
  (∀ ring s f, Accepts s ring f 0x61 → (s.isHead = false ∨ f.body 0 4 = 0) → Answers (.ringAdmit ring) s fun t =>
    Finished ring f (if s.isHead then Status.badDescriptor else Status.unsupported) s t ∧ t = { s with ctl := t.ctl }) ∧
  (∀ ring s f, Accepts s ring f 0x62 → (s.isHead = false ∨ f.body 0 4 = 0) → Answers (.ringRelease ring) s fun t =>
    Finished ring f (if s.isHead then Status.badDescriptor else Status.unsupported) s t ∧ t = { s with ctl := t.ctl }) ∧
  (∀ ring s f o, Accepts s ring f 0x61 → s.isHead = true → f.body 0 4 ≠ 0 →
    s.brix.ops.find? (fun o => o.bseq == f.body 0 4) = some o → Answers (.ringAdmit ring) s fun t =>
      Finished ring f o.status.toNat s t ∧ t = { s with ctl := t.ctl }) ∧
  (∀ ring s f, Accepts s ring f 0x61 → s.isHead = true → f.body 0 4 ≠ 0 →
    s.brix.ops.find? (fun o => o.bseq == f.body 0 4) = none → s.brix.role ≠ .active → Answers (.ringAdmit ring) s fun t =>
      t.brix.waits = s.brix.waits ++ [⟨false, ring, f.sq, f.tag, f.body 0 4, 0x61, bytesAt f.bytes 16 48, false⟩] ∧
      t.outcomes = s.outcomes ∧ (s.brix.bypassOpen = true → s.engineUp 7 = true → s.brix.mirrorOut = [] →
        ∃ pt, t.tx = .brixMessage pt 0x44 (mirrorBody 2 0x61 0 s.time.orbit
          (leBytes 1 ring ++ leBytes 1 0 ++ leBytes 2 f.sq ++ leBytes 4 f.tag.toNat ++ bytesAt f.bytes 16 48)) :: s.tx) ∧
      t.brix.role = s.brix.role ∧ t.brix.ops = s.brix.ops ∧ t = { s with brix := t.brix, ctl := t.ctl, tx := t.tx }) ∧
  (∀ ring s f, Accepts s ring f 0x61 → s.isHead = true → f.body 0 4 ≠ 0 →
    s.brix.ops.find? (fun o => o.bseq == f.body 0 4) = none → s.brix.role = .active → f.zero 5 43 = true →
    Answers (.ringAdmit ring) s fun t =>
      ((∀ p, p < 8 → Nat.testBit (f.body 4 1) p = true → s.posBypassed p = true) → Finished ring f Status.ok s t ∧
        ∀ p, p < 8 → (p ∈ t.brix.admits ↔ p ∈ s.brix.admits ∨ Nat.testBit (f.body 4 1) p = true)) ∧
      ((∃ p, p < 8 ∧ Nat.testBit (f.body 4 1) p = true ∧ s.posBypassed p = false) → Finished ring f Status.notFound s t ∧
        t.brix.admits = s.brix.admits) ∧
      (∃ o : BoardOp, t.brix.ops = (o :: s.brix.ops).take 64 ∧ o.bseq = f.body 0 4) ∧
      (s.brix.bypassOpen = true → s.engineUp 7 = true → s.brix.mirrorOut = [] → ∃ pt, t.tx.head? = some
        (.brixMessage pt 0x44 (mirrorBody 1 3 t.brix.mirrorVer s.time.orbit ((t.brix.ops.take 1).flatMap BoardOp.bytes ++
          originData (some ⟨false, ring, f.sq, f.tag, f.body 0 4, 0x61, bytesAt f.bytes 16 48, false⟩))))) ∧
      t = { s with brix := t.brix, ctl := t.ctl, tx := t.tx }) ∧
  (∀ ring s f, Accepts s ring f 0x62 → s.isHead = true → f.body 0 4 ≠ 0 →
    s.brix.ops.find? (fun o => o.bseq == f.body 0 4) = none → s.brix.role = .active → f.body 4 1 < 8 → f.zero 5 3 = true →
    f.zero 16 32 = true → f.body 4 1 ≠ s.position → f.body 4 1 < s.ringN → s.posPresent (f.body 4 1) = true →
    (∀ r, r ∈ s.brix.releases → r.bseq ≠ f.body 0 4) → 2 ≤ orbitDiff (f.body 8 8) s.time.orbit → Answers (.ringRelease ring) s fun t =>
      t.brix.releases = s.brix.releases ++ [⟨f.body 4 1, f.body 8 8, f.body 0 4⟩] ∧
      t.brix.waits = s.brix.waits ++ [⟨false, ring, f.sq, f.tag, f.body 0 4, 0x62, bytesAt f.bytes 16 48, false⟩] ∧
      (s.brix.releases = [] → byteAt t.mapBody 5 = 128 + f.body 4 1 ∧ le t.mapBody 8 8 = f.body 8 8) ∧
      (s.brix.bypassOpen = true → s.engineUp 7 = true → s.brix.mirrorOut = [] → ∃ pt, t.tx.head? = some
        (.brixMessage pt 0x44 (mirrorBody 1 2 t.brix.mirrorVer s.time.orbit
          (Release.bytes ⟨f.body 4 1, f.body 8 8, f.body 0 4⟩)))) ∧
      t.brix.role = .active ∧ t.brix.ops = s.brix.ops ∧ t.outcomes = s.outcomes ∧
      t = { s with brix := t.brix, ctl := t.ctl, tx := t.tx }) ∧
  (∀ ring s f, Accepts s ring f 0x62 → s.isHead = true → f.body 0 4 ≠ 0 →
    s.brix.ops.find? (fun o => o.bseq == f.body 0 4) = none → s.brix.role = .active → f.body 4 1 < 8 → f.zero 5 3 = true →
    f.zero 16 32 = true → f.body 4 1 ≠ s.position → f.body 4 1 < s.ringN → s.posPresent (f.body 4 1) = true →
    (∀ r, r ∈ s.brix.releases → r.bseq ≠ f.body 0 4) → orbitDiff (f.body 8 8) s.time.orbit < 2 → Answers (.ringRelease ring) s fun t => Finished ring f Status.late s t ∧
      t.brix.releases = s.brix.releases) ∧
  (∀ ring s f, Accepts s ring f 0x60 → s.isHead = true → f.body 0 4 ≠ 0 →
    s.brix.ops.find? (fun o => o.bseq == f.body 0 4) = none → s.brix.role = .active → 256 ≤ f.body 16 4 →
    f.body 16 4 % 8 = 0 → f.zero 4 4 = true → f.zero 20 28 = true → f.body 8 8 % 8 = 0 →
    (s.tryShare 7 0 fun t => t.acceptRun ring f fun f t => t.boardOp ring f).isSome = true →
    Answers (.ringTable ring) s fun t => Finished ring f Status.ok s t ∧
      (∃ o : BoardOp, t.brix.ops = (o :: s.brix.ops).take 64 ∧ o.bseq = f.body 0 4 ∧ o.status = 0x00) ∧
      (s.brix.bypassOpen = true → s.engineUp 7 = true → s.brix.mirrorOut = [] → ∃ pt, t.tx.head? = some
        (.brixMessage pt 0x44 (mirrorBody 1 3 t.brix.mirrorVer s.time.orbit ((t.brix.ops.take 1).flatMap BoardOp.bytes ++
          originData (some ⟨false, ring, f.sq, f.tag, f.body 0 4, 0x60, bytesAt f.bytes 16 48, false⟩))))) ∧
      t.spool = ((s.takeHead ring f).hostWrite 7 (f.body 8 8) s.ringTableBytes).spool ∧ t.time = s.time ∧ t.hist = s.hist)
/-- On a path that serves and with the page unlocked, a write through a window whose word lies in the user area stores the
word (plain), sets the bits that are 1 (set) or clears them (clear) at byte 1024 × MEM_WIN_ADDR + 4w of the path's own
selection; every other byte of the user area and every register is as before. Beyond the user area the write is ignored and
WIN_ERR is set. -/
def Obligations.WindowsWriteTheUserArea : Prop :=
  (∀ p w v s a, Reaches s p (Reg.memWinPlain (w % 256)) → s.winByte p w = some a → Answers (.memWinPlain p w v) s fun t =>
    t.userWord a = v ∧ (∀ b, b < a ∨ a + 4 ≤ b → tabGet 0 t.mem.user b = tabGet 0 s.mem.user b) ∧ SameRegs [] s t ∧
    t = State.withPaths { s with mem := { s.mem with user := t.mem.user } } t) ∧
  (∀ p w v s a, Reaches s p (Reg.memWinSet (w % 256)) → s.winByte p w = some a → Answers (.memWinSet p w v) s fun t =>
    t.userWord a = s.userWord a ||| v ∧ (∀ b, b < a ∨ a + 4 ≤ b → tabGet 0 t.mem.user b = tabGet 0 s.mem.user b) ∧
    SameRegs [] s t ∧ t = State.withPaths { s with mem := { s.mem with user := t.mem.user } } t) ∧
  (∀ p w v s a, Reaches s p (Reg.memWinClr (w % 256)) → s.winByte p w = some a → Answers (.memWinClr p w v) s fun t =>
    t.userWord a = s.userWord a &&& ~~~v ∧ (∀ b, b < a ∨ a + 4 ≤ b → tabGet 0 t.mem.user b = tabGet 0 s.mem.user b) ∧
    SameRegs [] s t ∧ t = State.withPaths { s with mem := { s.mem with user := t.mem.user } } t) ∧
  (∀ p w v s, Reaches s p (Reg.memWinPlain (w % 256)) → s.winByte p w = none → Answers (.memWinPlain p w v) s fun t =>
    EventSet Reg.memStat 10 s t ∧ SameRegs [Reg.memStat] s t ∧ t = s.withPaths t)

/-- A corrected word counts in its bank and is logged (with SYNDROME and the bit's place free: log entry 28), an uncorrectable one
counts, sets UE_EVT and is logged, and with AUTO_COL = 1 a large bank's column that it involves has its repair begin; a clean one
changes nothing. At the end of a pass, which the PERIOD gives and not before, the counts of every large bank start over, a repair selected in it has its pass begin and one
selected before it takes effect. A march line that passes moves the march on by one line, and the last one completes its
descriptor. MEM_MARCH starts a march or completes NO_SLOT while one runs; MEM_REPAIR selects its column or row;
MEM_LOG_READ completes OK and keeps the log's entries. -/
def Obligations.PatrolMarchesAndRepairs : Prop :=
  (∀ b a c s, bit (s.reg Reg.memCtl) 3 = true → s.past .memtest = true → b < 76 → a < 65536 → s.inRetention b = false →
    s.lineUnderTest b a = false → exec (.patrolRead b a c .clean) s = .next s ∧
    Answers (.patrolRead b a c .corrected) s (fun t => (t.bank b).ce = satInc 0xFFFFFFFF (s.bank b).ce ∧
      t.mem.log = ((logEntry s.time.xcount 1 b a s.syndrome (s.errorBit 72) s.mem.lseq, false) :: s.mem.log).take 1024 ∧
      (∀ k, k ≠ b → t.bank k = s.bank k) ∧ SameRegs [Reg.memStat] s t ∧ t = { s with mem := t.mem, regs := t.regs }) ∧
    Answers (.patrolRead b a c .uncorrectable) s fun t => (t.bank b).ue = satInc 0xFFFFFFFF (s.bank b).ue ∧
      bit (t.reg Reg.memStat) 2 = true ∧ (∀ k, k ≠ b → t.bank k = s.bank k) ∧ t.mem.user = s.mem.user ∧
      (b < 68 → (logEntry s.time.xcount 2 b a s.syndrome 0 s.mem.lseq, false) ∈ t.mem.log) ∧
      (b < 64 → bit (s.reg Reg.memCtl) 1 = true → (s.bank b).repairs = [] →
        (0 < s.spareLeft b → (t.bank b).repairs = [(c, 0)]) ∧ (s.spareLeft b = 0 → bit (t.reg Reg.memStat) 4 = true)) ∧
      (b < 64 → bit (s.reg Reg.memCtl) 1 = false → (t.bank b).repairs = (s.bank b).repairs) ∧
      t.time = s.time) ∧
  (∀ s, s.patrolDue = false → exec .patrolPassEnd s = .next s) ∧
  (∀ s, bit (s.reg Reg.memCtl) 3 = true → s.past .memtest = true → s.patrolDue = true → Answers .patrolPassEnd s fun t =>
    t.mem.patrolAt = s.time.now ∧ ∀ b, b < 64 → (t.bank b).cols = [] ∧ ((s.bank b).repairs = [] → (t.bank b).repairs = []) ∧
      (∀ c, (s.bank b).repairs = [(c, 0)] → (t.bank b).repairs = [(c, 1)]) ∧
      (∀ c d, c ≠ d → (s.bank b).repairs = [(c, 0), (d, 0)] → (t.bank b).repairs = [(c, 1), (d, 1)]) ∧
      (∀ c d n, c ≠ d → (s.bank b).repairs = [(c, n + 1), (d, 0)] → (t.bank b).repairs = [(d, 1)] ∧
        c ∈ (t.bank b).columns) ∧
      ∀ c n, (s.bank b).repairs = [(c, n + 1)] → (t.bank b).repairs = [] ∧ c ∈ (t.bank b).columns) ∧
  (∀ s m, s.mem.march = some m → (68 ≤ m.bank → (s.engine (m.bank - 68)).restarting = false) → 1 < m.left →
    m.aborted = false → Answers (.marchLine true) s fun t => t = { s with mem := { s.mem with
      march := some { m with next := m.next + 1, left := m.left - 1, tested := m.tested + 1 } } }) ∧
  (∀ s m r q tag, s.mem.march = some m → (68 ≤ m.bank → (s.engine (m.bank - 68)).restarting = false) → m.left = 1 →
    m.aborted = false → m.op = some (r, q, tag) → m.failing = m.retired → Answers (.marchLine true) s fun t =>
      Committed r q Status.ok tag s t ∧ t.mem.march = s.mem.marchQueue.head? ∧ t.regs = s.regs ∧
      t = { s with mem := t.mem, ctl := t.ctl }) ∧
  (∀ ring s f, Accepts s ring f 0x50 → 64 ≤ f.body 0 1 → f.body 0 1 ≤ 75 → f.body 1 1 ≤ 1 → f.zero 2 2 = true →
    f.zero 12 36 = true → f.body 8 4 ≠ 0 → f.body 4 4 + f.body 8 4 ≤ 8192 → Answers (.memMarch ring) s fun t =>
      (s.mem.march = none → (∃ m : March, t.mem = { s.mem with march := some m } ∧
          m = ⟨f.body 0 1, f.body 1 1, f.body 4 4, f.body 8 4, 0, 0, 0, some (ring, f.sq, f.tag), false⟩) ∧
        t = { s with mem := t.mem, ctl := t.ctl }) ∧
      (s.mem.march ≠ none → Finished ring f Status.noSlot s t ∧ t = { s with ctl := t.ctl })) ∧
  (∀ ring s f, Accepts s ring f 0x51 → 1 ≤ f.body 4 2 → f.body 4 2 ≤ 1024 → 32 * f.body 4 2 ≤ f.body 16 4 →
    f.zero 6 2 = true → f.zero 20 28 = true → f.body 8 8 % 8 = 0 →
    (s.tryShare 7 0 fun t => t.acceptRun ring f fun f t => t.memLogRead ring f).isSome = true →
    Answers (.memLogRead ring) s fun t => Finished ring f Status.ok s t ∧
      t.mem.log.map Prod.fst = s.mem.log.map Prod.fst ∧ t.time = s.time ∧ t.hist = s.hist) ∧
  (∀ ring s f, Accepts s ring f 0x52 → f.body 0 1 = 1 → f.body 1 1 ≤ 63 → f.zero 2 2 = true → f.zero 8 40 = true →
    (∀ b, b < 64 → (s.bank b).repairs = []) → Answers (.memRepair ring) s fun t =>
      (Config.columnExists (f.body 4 4) = false → Finished ring f Status.notFound s t ∧ t.mem = s.mem) ∧
      (Config.columnExists (f.body 4 4) = true → s.spareLeft (f.body 1 1) = 0 → Finished ring f Status.noSlot s t ∧
        t.mem = s.mem) ∧
      (Config.columnExists (f.body 4 4) = true → s.spareLeft (f.body 1 1) ≠ 0 →
        (t.bank (f.body 1 1)).repairs = [(f.body 4 4, 0)] ∧ (∀ k, k ≠ f.body 1 1 → t.bank k = s.bank k) ∧
        t.mem.repairs = s.mem.repairs ++ [⟨1, ring, f.sq, f.tag, f.body 1 1, f.body 4 4⟩]) ∧
      t = { s with mem := t.mem, ctl := t.ctl }) ∧
  (∀ ring s f, Accepts s ring f 0x52 → f.body 0 1 = 2 → f.zero 1 7 = true → f.zero 16 32 = true → s.mem.redirect = none →
    Answers (.memRepair ring) s fun t =>
      (Config.rowExists (f.body 8 8) = false → Finished ring f Status.notFound s t ∧ t.mem = s.mem) ∧
      (Config.rowExists (f.body 8 8) = true → s.spareRow (f.body 8 8) = 0 → Finished ring f Status.noSlot s t ∧
        t.mem = s.mem) ∧
      (Config.rowExists (f.body 8 8) = true → s.spareRow (f.body 8 8) ≠ 0 → t.mem.redirect = some (f.body 8 8) ∧
        t.mem.banks = s.mem.banks) ∧ t = { s with mem := t.mem, ctl := t.ctl })

/-- DOSE_READ, a second after the last one and when no control work waits for E6, posts both values and sets DOSE_WARN_EVT
when a value first reaches its threshold; else it does nothing. CE_CLR clears both counts
of the bank the path has selected and of no other; CONF_CLR clears the configuration upset counts. A lockstep mismatch puts
its engine, and no other, into restart, counts it and sets LOCKSTEP_EVT; a voter that finds a copy different, which the same
command brings (log entry 28), corrects it, counts it in MEM_TMR_CNT and logs SOURCE 0x05. ENGINE_RESUME ends a restart and a switch,
sets CKPT_OLD exactly when the older checkpoint is used, and handles what came for E7 meanwhile; outside probation
with no valid checkpoint the image is loaded again and neither slot is valid. During probation a third restart within
a second, both checkpoints failing, a start check that the firmware fails, or an engine that comes more than 20 µs after the
target of its switch, is a fall-back; outside probation a failed start check leaves the engine in its restart (log entry 117). -/
def Obligations.DoseClearsAndEngineRestarts : Prop :=
  (∀ d fl s, (s.engineUp 6 = false ∨ s.doseDue = false ∨ s.e6Waits = true) → exec (.doseRead d fl) s = .next s) ∧
  (∀ d fl s, s.engineUp 6 = true → s.doseDue = true → s.e6Waits = false → d < 2 ^ 24 → fl < 2 ^ 24 → Answers (.doseRead d fl) s fun t => t.mem.dose = d ∧
    t.mem.fluence = fl ∧ t.mem.doseAt = some s.time.now ∧ SameRegs [Reg.memStat] s t ∧ t.mem.user = s.mem.user ∧ t.mem.banks = s.mem.banks ∧
    ((10 * bits (s.reg Reg.memDoseWarn) 15 0 ≤ d ∧ s.mem.doseWarned = false ∨
      10 * bits (s.reg Reg.memDoseWarn) 31 16 ≤ fl ∧ s.mem.fluWarned = false) → EventSet Reg.memStat 8 s t) ∧
    ((d < 10 * bits (s.reg Reg.memDoseWarn) 15 0 ∨ s.mem.doseWarned = true) →
      (fl < 10 * bits (s.reg Reg.memDoseWarn) 31 16 ∨ s.mem.fluWarned = true) → t.regs = s.regs) ∧
    t = { s with mem := t.mem, regs := t.regs }) ∧
  (∀ p v s, Reaches s p Reg.memCtl → Answers (.ceClr p v) s fun t => (t.bank (s.selBank p)).ce = 0 ∧
    (t.bank (s.selBank p)).ue = 0 ∧ (∀ b, b ≠ s.selBank p → t.bank b = s.bank b) ∧ t.mem.user = s.mem.user ∧
    SameRegs [Reg.memCtl] s t ∧ t = State.withPaths { s with mem := t.mem } t) ∧
  (∀ p v s, Reaches s p Reg.memCtl → bit v 9 = false → Answers (.confClr p v) s fun t => t.mem = { s.mem with conf := [] } ∧
    SameRegs [Reg.memCtl] s t ∧ t = State.withPaths { s with mem := t.mem } t) ∧
  (∀ k s, k < 8 → (s.engine k).running = true → (s.fw.probation = false ∨ (s.engine k).recent.length < 2) →
    Answers (.lockstepMismatch (.cores k)) s fun t =>
    (t.engine k).restarting = true ∧ (t.engine k).restarts = satInc 0xFF (s.engine k).restarts ∧
    (∀ j, j ≠ k → t.engine j = s.engine j) ∧ bit (t.reg Reg.memStat) 5 = true ∧ SameRegs [Reg.memStat] s t ∧
    t.mem.user = s.mem.user ∧ t.time = s.time ∧ t.spool = s.spool) ∧
  (∀ k s x y, k < 8 → (s.engine k).running = true → s.fw.probation = true → (s.engine k).recent = [x, y] →
    s.time.now ≤ y + s.seconds 1 → Answers (.lockstepMismatch (.cores k)) s fun t => t.fw.fellBack = true ∧ t.fw.probation = false ∧
      (t.slot s.fw.runSlot).st = .bad ∧ t.fw.runSlot = s.fw.prevSlot ∧ bit (t.reg Reg.memStat) 6 = true ∧
      bit (t.reg Reg.fwStat) 8 = true ∧ t.time = s.time ∧ t.mem.user = s.mem.user) ∧
  (∀ k a b s, k < 8 → (s.engine k).running = true → (s.engine k).restarting = true → k ≠ 0 → k ≠ 5 →
    (k = 6 → s.fw.chunkOps = []) →
    (s.fw.probation = false ∨ s.switchLate k = false ∧
      (a = true ∧ (s.engine k).newestValid = true ∨ b = true ∧ (s.engine k).olderValid = true)) →
    (k = 7 → s.brix.heldIn = [] ∧ s.brix.mirrorOut = []) → Answers (.engineResume ⟨k, true⟩ a b) s fun t => (t.engine k).restarting = false ∧ (∀ j, j ≠ k → t.engine j = s.engine j) ∧
      SameRegs [Reg.memStat] s t ∧ (bit (t.reg Reg.memStat) 7 = true ↔ bit (s.reg Reg.memStat) 7 = true ∨
        ((a && (s.engine k).newestValid) = false ∧ (b && (s.engine k).olderValid) = true)) ∧ t = { s with fw := t.fw, regs := t.regs }) ∧
  (∀ k c a b s, k < 8 → (s.engine k).running = true → (s.engine k).restarting = true → s.fw.probation = true →
    ((a && (s.engine k).newestValid || b && (s.engine k).olderValid) = false ∨ c = false ∨ s.switchLate k = true) →
    Answers (.engineResume ⟨k, c⟩ a b) s fun t =>
      t.fw.fellBack = true ∧ t.fw.probation = false ∧ (t.slot s.fw.runSlot).st = .bad ∧ t.fw.runSlot = s.fw.prevSlot ∧
      bit (t.reg Reg.fwStat) 8 = true ∧ t.time = s.time) ∧
  (∀ a b s, (s.engine 7).running = true → (s.engine 7).restarting = true → s.fw.probation = false →
    Answers (.engineResume ⟨7, true⟩ a b) s fun t => (t.engine 7).restarting = false ∧ t.brix.heldIn = [] ∧ t.time = s.time) ∧
  (∀ a b s, (s.engine 0).running = true → (s.engine 0).restarting = true →
    (s.fw.probation = false ∨ s.switchLate 0 = false ∧
      (a = true ∧ (s.engine 0).newestValid = true ∨ b = true ∧ (s.engine 0).olderValid = true)) →
    Answers (.engineResume ⟨0, true⟩ a b) s fun t =>
    (t.engine 0).restarting = false ∧ (∀ j, j ≠ 0 → t.engine j = s.engine j) ∧ t.ctl.rings = s.ctl.rings ∧
    t.ctl.reads.length = s.ctl.reads.length) ∧
  (∀ a b s, (s.engine 5).running = true → (s.engine 5).restarting = true →
    (s.fw.probation = false ∨ s.switchLate 5 = false ∧
      (a = true ∧ (s.engine 5).newestValid = true ∨ b = true ∧ (s.engine 5).olderValid = true)) →
    Answers (.engineResume ⟨5, true⟩ a b) s fun t =>
    (t.engine 5).restarting = false ∧ (∀ j, j ≠ 5 → t.engine j = s.engine j) ∧
    (s.survey.job ≠ .idle → t.survey = s.survey)) ∧
  (∀ k a b s, k < 8 → (s.engine k).running = true → (s.engine k).restarting = true → k ≠ 0 → k ≠ 5 → s.fw.probation = false →
    Answers (.engineResume ⟨k, true⟩ a b) s fun t =>
      ((a && (s.engine k).newestValid || b && (s.engine k).olderValid) = true → t.engine k = { s.engine k with
        restarting := false, switchedAt := none }) ∧
      ((a && (s.engine k).newestValid || b && (s.engine k).olderValid) = false →
        t.engine k = { s.engine k with restarting := false, switchedAt := none, ckpt0 := false, ckpt1 := false }) ∧ t.time = s.time) ∧
  (∀ i s, i < 47 → s.power.phase ≠ .rails → Answers (.lockstepMismatch (.voter i)) s fun t =>
    t.mem.tmrCnt = satInc 0xFFFFFFFF s.mem.tmrCnt ∧
    t.mem.log = ((logEntry s.time.xcount 5 i 0 0 0 s.mem.lseq, false) :: s.mem.log).take 1024 ∧ t = { s with mem := t.mem }) ∧
  (∀ k a b s, s.fw.probation = false → exec (.engineResume ⟨k, false⟩ a b) s = .next s)
/-- FW_OPEN for slot 1 or 2 first reads its header of 256 bytes; a header that fails its check completes with the failure's
status, and one that passes opens an idle slot with that header. FW_CHUNK for a chunk not written issues the host read of LEN bytes
at ADDR for its slot, unless an earlier descriptor is reading the same chunk (log entry 66); for one already written it reads
nothing and completes OK at once. FW_CLOSE completes PARTIAL while chunks are missing; else the payload is read back, the slot is
VALID when the digest is the header's and emptied when it is not, and a page beyond correction makes the slot BAD (log entry 110).
FW_DROP, and 1 s without a chunk, empty the slot. -/
def Obligations.UpdateSessions : Prop :=
  (∀ ring s f, Accepts s ring f 0x40 → s.engineUp 6 = true → fwOpenBad f = none → s.prepOf ring f.sq = none →
    s.readFree = true → Answers (.fwOpen ring) s fun t =>
      t.ctl.preps = ⟨ring, f.sq, none, none, false⟩ :: s.ctl.preps ∧
      (∃ q : HostRead, t.ctl.reads = s.ctl.reads ++ [q] ∧ q.addr = f.body 8 8 ∧ q.len = 256 ∧ q.use = .fwHeader ring f.sq) ∧
      t.fw = s.fw ∧ t.time = s.time) ∧
  (∀ ring s f p h, Accepts s ring f 0x40 → s.engineUp 6 = true → fwOpenBad f = none → s.prepOf ring f.sq = some p →
    p.mask = some h → s.fw.runSlot ≠ f.body 0 1 → s.fw.act = none → (s.slot (f.body 0 1)).st ≠ .open_ →
    Answers (.fwOpen ring) s fun t => (∀ st, s.headerFails h = some st → Finished ring f st s t ∧ t.fw = s.fw) ∧
      (s.headerFails h = none → Finished ring f Status.ok s t ∧
        t.slot (f.body 0 1) = { Slot.init with st := .open_, header := h, since := s.time.now } ∧
        (∀ i, i ≠ f.body 0 1 → t.slot i = s.slot i)) ∧ t = { s with ctl := t.ctl, fw := t.fw }) ∧
  (∀ ring s f, Accepts s ring f 0x41 → s.engineUp 6 = true → s.readFree = true → f.zero 1 3 = true →
    f.zero 20 28 = true → s.sessionOpen (f.body 0 1) = true → f.body 4 4 % 4096 = 0 →
    f.body 4 4 < hdrPayload (s.slot (f.body 0 1)).header →
    f.body 16 4 = min 4096 (hdrPayload (s.slot (f.body 0 1)).header - f.body 4 4) → f.body 8 8 % 8 = 0 →
    Answers (.fwChunk ring) s fun t => t.slot (f.body 0 1) = { s.slot (f.body 0 1) with since := s.time.now } ∧
      (∀ i, i ≠ f.body 0 1 → t.slot i = s.slot i) ∧
      (memNat (s.slot (f.body 0 1)).chunks (f.body 4 4) = true → Finished ring f Status.ok s t ∧
        t.fw.chunkOps = s.fw.chunkOps ∧ t.ctl.reads = s.ctl.reads) ∧
      (memNat (s.slot (f.body 0 1)).chunks (f.body 4 4) = false → t.ctl.committed = s.ctl.committed ∧
        ∃ c : ChunkOp, t.fw.chunkOps = s.fw.chunkOps ++ [c] ∧ c.ring = ring ∧ c.sq = f.sq ∧ c.slot = f.body 0 1 ∧
          c.offset = f.body 4 4 ∧
          ((∀ d, d ∈ s.fw.chunkOps → ¬(d.slot = f.body 0 1 ∧ d.offset = f.body 4 4)) →
            ∃ q : HostRead, t.ctl.reads = s.ctl.reads ++ [q] ∧ q.addr = f.body 8 8 ∧ q.len = f.body 16 4 ∧ q.use = .fwChunk c.oid) ∧
          ((∃ d ∈ s.fw.chunkOps, d.slot = f.body 0 1 ∧ d.offset = f.body 4 4) → t.ctl.reads = s.ctl.reads))) ∧
  (∀ ring (rd : StoreRead) s f, Accepts s ring f 0x42 → s.engineUp 6 = true → s.chunkBusy (f.body 0 1) = false →
    f.zero 1 47 = true → s.sessionOpen (f.body 0 1) = true → Answers (.fwClose ⟨ring, rd⟩) s fun t =>
      (∀ i, i ≠ f.body 0 1 → t.slot i = s.slot i) ∧
      ((s.slot (f.body 0 1)).chunks.length < hdrChunks (s.slot (f.body 0 1)).header →
        Finished ring f Status.partial_ s t ∧ t.slot (f.body 0 1) = s.slot (f.body 0 1) ∧ t = { s with ctl := t.ctl }) ∧
      (hdrChunks (s.slot (f.body 0 1)).header ≤ (s.slot (f.body 0 1)).chunks.length →
        t = { s.storeRead rd with ctl := t.ctl, fw := t.fw } ∧
        (rd.bad = none → (s.slot (f.body 0 1)).digestOk = true → Finished ring f Status.ok s t ∧
          t.slot (f.body 0 1) = { s.slot (f.body 0 1) with st := .valid }) ∧
        (rd.bad = none → (s.slot (f.body 0 1)).digestOk = false → Finished ring f Status.imageMismatch s t ∧
          t.slot (f.body 0 1) = .init) ∧
        (rd.bad ≠ none → Finished ring f Status.imageMismatch s t ∧
          t.slot (f.body 0 1) = { s.slot (f.body 0 1) with st := .bad }))) ∧
  (∀ ring s f, Accepts s ring f 0x43 → s.engineUp 6 = true → s.chunkBusy (f.body 0 1) = false → f.zero 1 47 = true →
    s.sessionOpen (f.body 0 1) = true → Answers (.fwDrop ring) s fun t => Finished ring f Status.ok s t ∧
      t.slot (f.body 0 1) = .init ∧ (∀ i, i ≠ f.body 0 1 → t.slot i = s.slot i) ∧
      t = { s with ctl := t.ctl, fw := t.fw }) ∧
  (∀ i s, s.sessionOpen i = true → s.chunkBusy i = false → (s.slot i).since + s.seconds 1 ≤ s.time.now →
    Answers (.sessionAbandon i) s fun t => t.slot i = .init ∧ (∀ j, j ≠ i → t.slot j = s.slot j) ∧
      t = { s with fw := { s.fw with slots := t.fw.slots } })

/-- With E6 in service, a FW_OPEN, FW_CHUNK, FW_CLOSE or FW_DROP that is next to be accepted runs whatever its fields, and each
branch of its rule completes it: the failures BAD_DESCRIPTOR, BAD_ADDRESS, NOT_FOUND, NO_SLOT and BUSY_OTHER change no slot; FW_OPEN
with its header joins an open session of the same digest (OK) or opens the slot (OK); FW_CHUNK of a chunk already written, FW_CLOSE
of a complete payload whose digest is the header's, and FW_DROP of an open session complete OK. SESSION_ABANDON runs in every state:
the slot of an open session left 1 s without a chunk is emptied, and else nothing changes. -/
def Obligations.UpdateSessionsComplete : Prop :=
  (∀ ring s f st, Accepts s ring f 0x40 → s.engineUp 6 = true → fwOpenBad f = some st →
    ∃ t, exec (.fwOpen ring) s = .next t ∧ Finished ring f st s t ∧ t.fw = s.fw) ∧
  (∀ ring s f p, Accepts s ring f 0x40 → s.engineUp 6 = true → fwOpenBad f = none → s.prepOf ring f.sq = some p →
    ∃ t, exec (.fwOpen ring) s = .next t ∧
      (p.mask = none → Finished ring f Status.badAddress s t ∧ t.fw = s.fw) ∧
      (∀ h, p.mask = some h → s.headerFails h = none →
        (s.fw.runSlot = f.body 0 1 ∨ (∃ a, s.fw.act = some a ∧ a.slot = f.body 0 1) → Finished ring f Status.noSlot s t ∧ t.fw = s.fw) ∧
        (s.fw.runSlot ≠ f.body 0 1 → s.fw.act = none → (s.slot (f.body 0 1)).st = .open_ →
          (hdrDigest (s.slot (f.body 0 1)).header = hdrDigest h → Finished ring f Status.ok s t ∧ t.fw = s.fw) ∧
          (hdrDigest (s.slot (f.body 0 1)).header ≠ hdrDigest h → Finished ring f Status.busyOther s t ∧ t.fw = s.fw)) ∧
        (s.fw.runSlot ≠ f.body 0 1 → s.fw.act = none → (s.slot (f.body 0 1)).st ≠ .open_ → Finished ring f Status.ok s t ∧
          (t.slot (f.body 0 1)).st = .open_ ∧ (t.slot (f.body 0 1)).header = h))) ∧
  (∀ ring s f, Accepts s ring f 0x41 → s.engineUp 6 = true → s.readFree = true →
    ∃ t, exec (.fwChunk ring) s = .next t ∧
      ((f.zero 1 3 && f.zero 20 28) = false → Finished ring f Status.badDescriptor s t ∧ t.fw = s.fw) ∧
      (f.zero 1 3 = true → f.zero 20 28 = true → s.sessionOpen (f.body 0 1) = false →
        Finished ring f Status.notFound s t ∧ t.fw = s.fw) ∧
      (f.zero 1 3 = true → f.zero 20 28 = true → s.sessionOpen (f.body 0 1) = true →
        (f.body 4 4 % 4096 ≠ 0 ∨ hdrPayload (s.slot (f.body 0 1)).header ≤ f.body 4 4 ∨
          f.body 16 4 ≠ min 4096 (hdrPayload (s.slot (f.body 0 1)).header - f.body 4 4) →
          Finished ring f Status.badDescriptor s t ∧ t.fw = s.fw) ∧
        (f.body 4 4 % 4096 = 0 → f.body 4 4 < hdrPayload (s.slot (f.body 0 1)).header →
          f.body 16 4 = min 4096 (hdrPayload (s.slot (f.body 0 1)).header - f.body 4 4) →
          (f.body 8 8 % 8 ≠ 0 → Finished ring f Status.badAddress s t ∧ t.fw = s.fw) ∧
          (f.body 8 8 % 8 = 0 → memNat (s.slot (f.body 0 1)).chunks (f.body 4 4) = true → Finished ring f Status.ok s t)))) ∧
  (∀ ring (rd : StoreRead) s f, Accepts s ring f 0x42 → s.engineUp 6 = true → s.chunkBusy (f.body 0 1) = false →
    ∃ t, exec (.fwClose ⟨ring, rd⟩) s = .next t ∧
      (f.zero 1 47 = false → Finished ring f Status.badDescriptor s t ∧ t.fw = s.fw) ∧
      (f.zero 1 47 = true → s.sessionOpen (f.body 0 1) = false → Finished ring f Status.notFound s t ∧ t.fw = s.fw) ∧
      (f.zero 1 47 = true → s.sessionOpen (f.body 0 1) = true → rd.bad = none → (s.slot (f.body 0 1)).digestOk = true →
        hdrChunks (s.slot (f.body 0 1)).header ≤ (s.slot (f.body 0 1)).chunks.length →
        Finished ring f Status.ok s t ∧ (t.slot (f.body 0 1)).st = .valid)) ∧
  (∀ ring s f, Accepts s ring f 0x43 → s.engineUp 6 = true → s.chunkBusy (f.body 0 1) = false →
    ∃ t, exec (.fwDrop ring) s = .next t ∧
      (f.zero 1 47 = false → Finished ring f Status.badDescriptor s t ∧ t.fw = s.fw) ∧
      (f.zero 1 47 = true → s.sessionOpen (f.body 0 1) = false → Finished ring f Status.notFound s t ∧ t.fw = s.fw) ∧
      (f.zero 1 47 = true → s.sessionOpen (f.body 0 1) = true → Finished ring f Status.ok s t ∧ t.slot (f.body 0 1) = .init)) ∧
  (∀ i s, ∃ t, exec (.sessionAbandon i) s = .next t ∧
    (s.sessionOpen i = true → s.chunkBusy i = false → (s.slot i).since + s.seconds 1 ≤ s.time.now → t.slot i = .init) ∧
    (s.sessionOpen i = false ∨ s.chunkBusy i = true ∨ s.time.now < (s.slot i).since + s.seconds 1 → t = s))

/-- FW_COPY_DONE marks a copy that passes its check 8 crossings or more before the target as done, and ends the stake of one
that fails with its status, or of one that passes later with LATE; a slot that could not be read is BAD. FW_ACTIVATE at its target with a finished copy runs the new slot, begins probation, remembers the
old slot and restarts every engine in service; without one it completes LATE; each engine in
service writes its hand-over checkpoint first. During probation, when an engine has not
reached step 4 of the switch 20 µs after its target, FW_FALLBACK returns to the previous slot and the checkpoints that its image
wrote, marks the failed slot BAD and sets its event; otherwise it does nothing. FW_COMMIT in probation makes
the running image the boot image, raises FW_MIN_SEC and the revocation bits and saves ID_HUB_ID (log entry 29); after a fallback it
completes FALLBACK, and else OK with nothing changed. -/
def Obligations.FirmwareSwitches : Prop :=
  (∀ (r : StoreRead) s a k, s.fw.act = some a → s.stakes.find? (fun q => q.sid == a.sid) = some k → a.copied = false →
    s.engineUp 6 = true → r.bad = none → Answers (.fwCopyDone r) s fun t =>
      (s.copyFails a.slot true = none → 8 ≤ s.distance k.orbit k.x →
        t = { s.storeRead r with fw := { s.fw with act := some { a with copied := true } } }) ∧
      (s.copyFails a.slot true = none → s.distance k.orbit k.x < 8 →
        StakeEnded k Status.late s t ∧ t.fw.slots = s.fw.slots ∧ t.fw.runSlot = s.fw.runSlot) ∧
      ∀ st, s.copyFails a.slot true = some st → StakeEnded k st s t ∧ t.fw.slots = s.fw.slots ∧ t.fw.runSlot = s.fw.runSlot) ∧
  (∀ p s a k, s.fw.act = some a → s.stakes.find? (fun q => q.sid == a.sid) = some k → a.copied = false →
    s.engineUp 6 = true → Answers (.fwCopyDone ⟨[], some p⟩) s fun t => StakeEnded k Status.imageMismatch s t ∧
      (t.slot a.slot).st = .bad ∧ (∀ i, i ≠ a.slot → t.slot i = s.slot i) ∧ t.fw.runSlot = s.fw.runSlot ∧
      t.mem.nvmUe = satInc 0xFFFF s.mem.nvmUe ∧ t.mem.log = ((logEntry s.time.xcount 8 0 p s.syndrome 0 s.mem.lseq, false) :: s.mem.log).take 1024 ∧
      bit (t.reg Reg.memStat) 2 = true ∧ (a.slot = 0 → EventSet Reg.fwStat 10 s t) ∧
      SameRegs [Reg.fwStat, Reg.memStat, Reg.timeStakeStat] s t) ∧
  (∀ s k a, s.dueStake 0x07 = some k → s.fw.act = some a → a.copied = true → Answers .fwActivate s fun t =>
    StakeRan k 0 (s.switchEngines Engine.handsOver) t ∧ t.fw.runSlot = a.slot ∧ t.fw.prevSlot = s.fw.runSlot ∧
    t.fw.prevVer = s.fw.runVer ∧ t.fw.prevDigest = s.fw.runDigest ∧ t.fw.probation = true ∧
    t.fw.fellBack = false ∧ t.fw.runVer = hdrVersion (s.slot a.slot).header ∧
    (∀ j, j < 8 → t.engine j =
      { (s.engine j).handsOver with
        restarting := (s.engine j).running, region := 1 - (s.engine j).region
        switchedAt := if (s.engine j).running = true then some s.time.now else none }) ∧ t.fw.slots = s.fw.slots ∧
    t.fw.settings = s.fw.settings ∧ SameRegs [Reg.timeStakeStat] s t ∧ t.time = s.time ∧ t.mem = s.mem) ∧
  (∀ s k, s.dueStake 0x07 = some k → (∀ a, s.fw.act = some a → a.copied = false) → Answers .fwActivate s fun t =>
    StakeEnded k Status.late s t ∧ t.fw.runSlot = s.fw.runSlot ∧ t.fw.engines = s.fw.engines) ∧
  (∀ k s, k < 8 → s.fw.probation = true → s.switchLate k = true → Answers .fwFallback s fun t => t.fw.runSlot = s.fw.prevSlot ∧ t.fw.runVer = s.fw.prevVer ∧
    t.fw.runSec = s.fw.prevSec ∧ t.fw.runDigest = s.fw.prevDigest ∧ t.fw.runRevoke = s.fw.prevRevoke ∧
    (t.slot s.fw.runSlot).st = .bad ∧ (∀ i, i ≠ s.fw.runSlot → t.slot i = s.slot i) ∧ t.fw.probation = false ∧
    t.fw.fellBack = true ∧ bit (t.reg Reg.fwStat) 8 = true ∧ SameRegs [Reg.fwStat] s t ∧
    (∀ j, j < 8 → t.engine j =
      { (s.engine j).takesBack with
        restarting := (s.engine j).running, region := 1 - (s.engine j).region
        switchedAt := if (s.engine j).running = true then some s.time.now else none }) ∧
    t.fw.settings = s.fw.settings ∧ t.time = s.time ∧ t.mem = s.mem) ∧
  (∀ ring s f, Accepts s ring f 0x44 → s.engineUp 6 = true → f.zero 0 48 = true → s.fw.probation = true →
    Answers (.fwCommit ring) s fun t => Finished ring f Status.ok s t ∧ t.fw.probation = false ∧
      t.fw.bootSlot = s.fw.runSlot ∧ t.fw.settings.bootSlot = s.fw.runSlot ∧
      t.fw.minSec = max s.fw.minSec s.fw.runSec ∧ t.fw.settings.minSec = t.fw.minSec ∧
      t.fw.revoked = s.fw.revoked ||| s.fw.runRevoke ∧ t.fw.idRevoked = t.fw.revoked ∧ t.fw.settings.hubId = some (s.fld Reg.idHubId 15 0) ∧
      t.fw.slots = s.fw.slots ∧ t = { s with ctl := t.ctl, fw := t.fw }) ∧
  (∀ ring s f, Accepts s ring f 0x44 → s.engineUp 6 = true → f.zero 0 48 = true → s.fw.probation = false →
    (s.fw.fellBack || s.fw.bootFellBack) = true → Answers (.fwCommit ring) s fun t =>
      Finished ring f Status.fallback s t ∧ t = { s with ctl := t.ctl, fw := { s.fw with bootFellBack := false } }) ∧
  (∀ ring s f, Accepts s ring f 0x44 → s.engineUp 6 = true → f.zero 0 48 = true → s.fw.probation = false →
    (s.fw.fellBack || s.fw.bootFellBack) = false → Answers (.fwCommit ring) s fun t =>
      Finished ring f Status.ok s t ∧ t = { s with ctl := t.ctl }) ∧
  (∀ s, (s.fw.probation = false ∨ ∀ j, j < 8 → s.switchLate j = false) → exec .fwFallback s = .next s)

/-- A CERT_READ with room for both certificates, and an ATTEST with room for 256 bytes, that the class-7 share takes,
complete OK. CERT_READ places the two certificates, each with its length before it, and ATTEST the 192 bytes that Table 15.6 lists
and the device's signature of them, as WRITE items of class 7 at the descriptor's address; the firmware, the user area, time and
the stakes are left alone. Of the record: MARK, FORMAT, the nonce, the Datum, the running and the boot slot, the revoked keys and
the digests stand where the table has them. -/
def Obligations.CertificatesAndAttestation : Prop :=
  (∀ ring s f, Accepts s ring f 0x48 → s.engineUp 6 = true →
    2064 ≤ f.body 16 4 → f.zero 0 8 = true →
    f.zero 20 28 = true → f.body 8 8 % 8 = 0 →
    (s.tryShare 7 0 fun t => t.acceptRun ring f fun f t => t.certRead ring f).isSome = true →
    Answers (.certRead ring) s fun t => Finished ring f Status.ok s t ∧ t.spool = ((s.takeHead ring f).hostWrite 7 (f.body 8 8)
        (certBytes Config.deviceCert ++ certBytes Config.authorityCert)).spool ∧ t.fw = s.fw ∧ t.mem.user = s.mem.user ∧
      t.time = s.time ∧ t.stakes = s.stakes) ∧
  (∀ ring s f, Accepts s ring f 0x49 → s.engineUp 6 = true → 256 ≤ f.body 24 4 → f.zero 28 20 = true →
    f.body 16 8 % 8 = 0 → (s.tryShare 7 0 fun t => t.acceptRun ring f fun f t => t.attest ring f).isSome = true →
    Answers (.attest ring) s fun t => Finished ring f Status.ok s t ∧
      t.spool = ((s.takeHead ring f).hostWrite 7 (f.body 16 8) (s.attestRecord f)).spool ∧ t.fw = s.fw ∧
      t.mem.user = s.mem.user ∧ t.time = s.time ∧ t.stakes = s.stakes) ∧
  (∀ (f : Fetched) (s : State), s.attestRecord f = (s.attestRecord f).take 192 ++ leBytes 64 (Config.deviceSig ((s.attestRecord f).take 192))) ∧
  (∀ (f : Fetched) (s : State), le (s.attestRecord f) 0 2 = 0xA77E ∧ byteAt (s.attestRecord f) 2 = 1 ∧
    (∀ i, i < 16 → byteAt (s.attestRecord f) (24 + i) = f.body i 1) ∧ le (s.attestRecord f) 40 8 = s.datum % 2 ^ 64 ∧
    byteAt (s.attestRecord f) 60 = s.fw.runSlot % 256 ∧ byteAt (s.attestRecord f) 61 = s.fw.bootSlot % 256 ∧
    byteAt (s.attestRecord f) 62 = s.fw.revoked.toNat ∧
    ((s.attestRecord f).take 192).drop 96 =
      sha256 s.configWords ++ sha256 (Config.settingsImage s.fw.settings) ++ leBytes 32 0)

/-- With E6 in service, a CERT_READ whose buffer takes two certificates of 1024 bytes, and an ATTEST whose buffer takes 256
bytes, at an aligned address, run and complete OK in every state in which nothing waits for class 7 and its share has 4096
bytes left beside what is queued, held and open. Every other class of the spool, the firmware, the user area, time, the stakes and
every register but MEM_STAT, where a macro that wakes for the packets is noted, are as before. -/
def Obligations.CertificatesAndAttestationComplete : Prop :=
  (∀ ring s f, Accepts s ring f 0x48 → s.engineUp 6 = true → 2064 ≤ f.body 16 4 → f.zero 0 8 = true → f.zero 20 28 = true →
    f.body 8 8 % 8 = 0 → s.classWaits 7 = false → (s.cls 7).occOpen + 4096 ≤ s.shareBytes 7 →
    ∃ t, exec (.certRead ring) s = .next t ∧ Finished ring f Status.ok s t ∧
      t.spool = ((s.takeHead ring f).hostWrite 7 (f.body 8 8)
        (certBytes Config.deviceCert ++ certBytes Config.authorityCert)).spool ∧ (∀ c, c ≠ 7 → t.cls c = s.cls c) ∧
      t.fw = s.fw ∧ t.mem.user = s.mem.user ∧ t.time = s.time ∧ t.stakes = s.stakes ∧ SameRegs [Reg.memStat] s t) ∧
  (∀ ring s f, Accepts s ring f 0x49 → s.engineUp 6 = true → 256 ≤ f.body 24 4 → f.zero 28 20 = true →
    f.body 16 8 % 8 = 0 → s.classWaits 7 = false → (s.cls 7).occOpen + 4096 ≤ s.shareBytes 7 →
    ∃ t, exec (.attest ring) s = .next t ∧ Finished ring f Status.ok s t ∧
      t.spool = ((s.takeHead ring f).hostWrite 7 (f.body 16 8) (s.attestRecord f)).spool ∧ (∀ c, c ≠ 7 → t.cls c = s.cls c) ∧
      t.fw = s.fw ∧ t.mem.user = s.mem.user ∧ t.time = s.time ∧ t.stakes = s.stakes ∧ SameRegs [Reg.memStat] s t)
/-- With the converter enabled and idle, START in a scanning mode begins a pass at an enabled point of the table, STOP ends the
scan, and SELFCAL begins a self-calibration, which marks every result STALE; while a pass runs or a point is converted, START is kept for
its end, STOP for the end of the conversion and SELFCAL for its turn. With a conversion that STOP let end the pass is over; a START
written after that STOP then begins the scan anew. A period that has passed since the last start
during a pass is kept and sets OVERRUN_EVT, with a START that waits too; before its end nothing happens. While E5 restarts START is kept as well; a pass with no
enabled entry takes no time, and clearing EN while no read has the converter ends the scan without a result (log entry 27). A self-calibration that may start does when the converter is idle and waits otherwise; its end
lets a queued read go first, then a pass that waits for the converter, or leaves the converter idle with nothing to do. The end of settling begins the conversion, or
posts OPEN when the input is open. Memory, time and the history store are left alone. -/
def Obligations.SurveyScansAndCalibrates : Prop :=
  (∀ p v s i, Reaches s p Reg.srvCtl → bit v 0 = true → bit (s.reg Reg.srvCtl) 0 = true → bit v 9 = false → bit v 10 = false →
    (bits v 2 1 = 1 ∨ bits v 2 1 = 2) → s.survey.selfReq = false → s.survey.job = .idle → s.survey.passRun = false →
    s.e5Up = true → i < s.srvLen → s.ptEn (bits (s.reg (Reg.srvScanEntry i)) 5 0) = true → Answers (.srvStart p v) s fun t =>
      t.survey.passRun = true ∧ t.survey.scanOn = true ∧ (∃ q, t.survey.job = .settling q false ∧ s.ptEn q = true) ∧
      t.survey.results = s.survey.results ∧ SameRegs [Reg.srvCtl] s t ∧
      t = State.withPaths { s with survey := t.survey } t) ∧
  (∀ p v s, Reaches s p Reg.srvCtl → bit v 0 = true → bit (s.reg Reg.srvCtl) 0 = true → bit v 9 = false → bit v 10 = false →
    (bits v 2 1 = 1 ∨ bits v 2 1 = 2) → (s.survey.passRun = true ∨ s.survey.job ≠ .idle ∨ s.e5Up = false) →
    (s.survey.job = .idle → s.survey.selfReq = false ∨ s.survey.reads ≠ []) → Answers (.srvStart p v) s fun t =>
      t.survey = { s.survey with passDue := true, scanOn := true } ∧ SameRegs [Reg.srvCtl] s t ∧
      t = State.withPaths { s with survey := t.survey } t) ∧
  (∀ p v s, Reaches s p Reg.srvCtl → bit v 0 = true → bit (s.reg Reg.srvCtl) 0 = true → bit v 8 = false → bit v 10 = false →
    s.survey.selfReq = false → Answers (.srvStop p v) s fun t => t.survey.passDue = false ∧ t.survey.scanOn = false ∧
      (s.survey.passRun = false → t.survey.job = s.survey.job) ∧
      (s.survey.passRun = true → s.survey.job ≠ .idle → t.survey.stopReq = true ∧ t.survey.passRun = true) ∧
      SameRegs [Reg.srvCtl] s t ∧ t = State.withPaths { s with survey := t.survey } t) ∧
  (∀ p v s, Reaches s p Reg.srvCtl → bit v 0 = true → bit (s.reg Reg.srvCtl) 0 = true → bit v 8 = false → bit v 9 = false →
    Answers (.selfcal p v) s fun t => (s.survey.job = .idle → s.survey.reads = [] → t.survey.job = .selfCal ∧
        t.survey.selfReq = false ∧ ∀ k, k < 64 → (t.srvRes k).status.getLsbD 7 = true ∧
          (t.srvRes k).value = (s.srvRes k).value ∧ (t.srvRes k).code = (s.srvRes k).code) ∧
      ((s.survey.job ≠ .idle ∨ s.survey.reads ≠ []) → t.survey = { s.survey with selfReq := true }) ∧
      SameRegs [Reg.srvCtl] s t ∧ t.time = s.time ∧ t.mem = s.mem ∧ t.hist = s.hist) ∧
  (∀ s, s.survey.scanOn = true → s.survey.period ≠ 0 → s.survey.periodDue = false → s.survey.stopReq = false →
    s.survey.startAt + s.survey.period * 10 ^ 6 ≤ s.time.plumb → s.survey.passRun = true → Answers .surveyPassPeriod s fun t =>
    t.survey = { s.survey with passDue := true, periodDue := true } ∧ EventSet Reg.srvStat 10 s t ∧ SameRegs [Reg.srvStat] s t ∧
    t = { s with survey := t.survey, regs := t.regs }) ∧
  (∀ s i, s.survey.scanOn = true → s.survey.period ≠ 0 → s.survey.periodDue = false → s.survey.stopReq = false →
    s.survey.startAt + s.survey.period * 10 ^ 6 ≤ s.time.plumb → s.survey.passRun = false → s.survey.job = .idle →
    s.e5Up = true → (s.srvMode = 1 ∨ s.srvMode = 2) → bit (s.reg Reg.srvCtl) 0 = true → i < s.srvLen →
    s.ptEn (bits (s.reg (Reg.srvScanEntry i)) 5 0) = true → Answers .surveyPassPeriod s fun t => t.survey.passRun = true ∧
      (∃ q, t.survey.job = .settling q false ∧ s.ptEn q = true) ∧ t = { s with survey := t.survey }) ∧
  (∀ s, s.time.plumb < s.survey.startAt + s.survey.period * 10 ^ 6 → exec .surveyPassPeriod s = .next s) ∧
  (∀ s, bit (s.reg Reg.srvCtl) 0 = true → s.selfcalAllowed = true → s.survey.job ≠ .selfCal → Answers .selfcalStart s fun t =>
    (s.survey.job = .idle → s.survey.reads = [] → t.survey.job = .selfCal ∧
      ∀ k, k < 64 → (t.srvRes k).status.getLsbD 7 = true ∧ (t.srvRes k).value = (s.srvRes k).value) ∧
    ((s.survey.job ≠ .idle ∨ s.survey.reads ≠ []) → t.survey = { s.survey with selfReq := true }) ∧
    t = { s with survey := t.survey, fresh := t.fresh }) ∧
  (∀ s, s.survey.job = .selfCal → s.survey.reads = [] → s.survey.selfReq = false → s.survey.passRun = false →
    s.survey.passDue = false → Answers .selfcalEnd s fun t => t = { s with survey := { s.survey with job := .idle } }) ∧
  (∀ s i, s.survey.job = .selfCal → s.survey.reads = [] → s.survey.selfReq = false → s.survey.passRun = false →
    s.survey.passDue = true → s.e5Up = true → (s.srvMode = 1 ∨ s.srvMode = 2) → bit (s.reg Reg.srvCtl) 0 = true → i < s.srvLen →
    s.ptEn (bits (s.reg (Reg.srvScanEntry i)) 5 0) = true → Answers .selfcalEnd s fun t => t.survey.passRun = true ∧
      t.survey.passDue = false ∧ t.survey.startAt = s.time.plumb ∧ (∃ q, t.survey.job = .settling q false ∧ s.ptEn q = true) ∧
      t = { s with survey := t.survey }) ∧
  (∀ s r l, s.survey.job = .selfCal → s.survey.reads = r :: l → Answers .selfcalEnd s fun t =>
    t.survey.job = .settling r.point true ∧ t.survey.reads = s.survey.reads ∧ t.survey.results = s.survey.results ∧
    t = { s with survey := t.survey }) ∧
  (∀ a b s p r, s.survey.job = .settling p r → (s.icode = 0 → (bit s.survey.ptB 19 && b) = false) → (s.icode ≠ 0 → a = false) →
    Answers (.surveySettlingEnd a b) s fun t => t = { s with survey := { s.survey with job := .converting p r, onPoint := if r then none else some p } }) ∧
  (∀ a b s p, s.survey.job = .settling p false → p < 64 → (s.icode = 0 → bit s.survey.ptB 19 = true ∧ b = true) →
    (s.icode ≠ 0 → a = true) → Answers (.surveySettlingEnd a b) s fun t => (t.srvRes p).status.toNat % 128 = 1 ∧
      (t.srvRes p).code = 0x800000#24 ∧ (t.srvRes p).value = 0x80000000#32 ∧
      (t.srvRes p).openRun = (s.srvRes p).openRun + 1 ∧ t.time = s.time ∧ t.mem.user = s.mem.user ∧ t.hist = s.hist) ∧
  (∀ p v s, Reaches s p Reg.srvCtl → bit v 0 = true → bit (s.reg Reg.srvCtl) 0 = true → bit v 9 = false → bit v 10 = false →
    (bits v 2 1 = 1 ∨ bits v 2 1 = 2) → s.survey.selfReq = false → s.survey.job = .idle → s.survey.passRun = false →
    s.e5Up = true → (∀ i, i < s.srvLen → s.ptEn (bits (s.reg (Reg.srvScanEntry i)) 5 0) = false) →
    Answers (.srvStart p v) s fun t => t.survey.passRun = false ∧ t.survey.job = .idle ∧
      (t.survey.scanOn = true ↔ s.fld Reg.srvScan 31 16 ≠ 0) ∧ t.survey.startAt = s.time.plumb ∧
      t.survey.results = s.survey.results ∧ SameRegs [Reg.srvCtl] s t ∧ t = State.withPaths { s with survey := t.survey } t) ∧
  (∀ p v s, Reaches s p Reg.srvCtl → bit v 0 = false → bit (s.reg Reg.srvCtl) 0 = true → s.readingNow = false →
    s.survey.reads = [] → Answers (.srvStop p v) s fun t => t.survey.job = .idle ∧ t.survey.passRun = false ∧
      t.survey.scanOn = false ∧ t.survey.passDue = false ∧ t.survey.results = s.survey.results ∧ SameRegs [Reg.srvCtl] s t ∧
      t = State.withPaths { s with survey := t.survey } t) ∧
  (∀ c s p, s.survey.job = .converting p false → s.survey.mode = 1 → s.survey.reads = [] → s.survey.selfReq = false →
    s.survey.passRun = true → s.survey.stopReq = true → s.survey.passDue = false → Answers (.surveyConversionEnd c) s fun t =>
      t.survey.passRun = false ∧ t.survey.stopReq = false ∧ t.survey.job = .idle ∧ t.survey.scanOn = s.survey.scanOn) ∧
  (∀ c s p i, s.survey.job = .converting p false → s.survey.mode = 1 → s.survey.reads = [] → s.survey.selfReq = false →
    s.survey.passRun = true → s.survey.stopReq = true → s.survey.passDue = true → s.e5Up = true → (s.srvMode = 1 ∨ s.srvMode = 2) →
    bit (s.reg Reg.srvCtl) 0 = true → i < s.srvLen → s.ptEn (bits (s.reg (Reg.srvScanEntry i)) 5 0) = true →
    Answers (.surveyConversionEnd c) s fun t => t.survey.passRun = true ∧ t.survey.scanOn = true ∧ t.survey.stopReq = false ∧
      t.survey.passDue = false ∧ t.survey.startAt = s.time.plumb ∧ ∃ q, t.survey.job = .settling q false ∧ s.ptEn q = true)

/-- A conversion posts its code as the point's result, OVER for a code at either end with its event, and completes the read that
it served; an input that is found open posts OPEN and completes its read OPEN_INPUT. In continuous mode an output that still settles posts nothing, and one that does not posts its code. A compliance
fault posts OPEN. A result too old is marked STALE and keeps its value. SRV_READ of an enabled point joins the reads, at most
8, and begins at once when the converter is idle; its other cases complete BAD_DESCRIPTOR, NOT_FOUND and NO_SLOT. SRV_DUMP
completes OK and keeps the results. Time and the history store are left alone. VALUE, and the choice between the statuses where the
manual states none, are not constrained (log entry 27). -/
def Obligations.SurveyPostsItsResults : Prop :=
  (∀ c s p, s.survey.job = .converting p false → s.survey.mode = 1 → p < 64 → Answers (.surveyConversionEnd c) s fun t =>
    (t.srvRes p).code = c ∧ ((c = 0x800000#24 ∨ c = 0x7FFFFF#24) → (t.srvRes p).status.toNat % 128 = 2 ∧
      bit (t.reg Reg.srvStat) 11 = true) ∧ (c ≠ 0x800000#24 → c ≠ 0x7FFFFF#24 →
        (t.srvRes p).status.toNat % 128 = 0 ∨ (t.srvRes p).status.toNat % 128 = 3 ∨ (t.srvRes p).status.toNat % 128 = 5) ∧
    t.ctl.committed = s.ctl.committed ∧ t.time = s.time ∧ t.hist = s.hist) ∧
  (∀ c s p r l, s.survey.job = .converting p true → s.survey.reads = r :: l → p < 64 →
    Answers (.surveyConversionEnd c) s fun t => (t.srvRes p).code = c ∧ t.survey.reads = l ∧
      Committed r.ring r.sq Status.ok r.tag s t ∧ t.time = s.time ∧ t.hist = s.hist) ∧
  (∀ c s p, s.survey.job = .converting p false → s.survey.mode = 2 → 0 < s.survey.settleOuts → s.survey.reads = [] →
    s.survey.selfReq = false → s.survey.stopReq = false → Answers (.surveyOutput c) s fun t =>
      t.survey.settleOuts = s.survey.settleOuts - 1 ∧ t.survey.results = s.survey.results ∧ t.survey.job = s.survey.job ∧
      t.time = s.time ∧ t.hist = s.hist) ∧
  (∀ c s p, s.survey.job = .converting p false → s.survey.mode = 2 → s.survey.settleOuts = 0 → p < 64 →
    Answers (.surveyOutput c) s fun t => (t.srvRes p).code = c ∧ t.ctl.committed = s.ctl.committed ∧ t.time = s.time ∧
      t.hist = s.hist) ∧
  (∀ s p, s.survey.job = .converting p false → s.icode ≠ 0 → p < 64 → Answers .excitationFault s fun t =>
    (t.srvRes p).status.toNat % 128 = 1 ∧ (t.srvRes p).code = 0x800000#24 ∧ (t.srvRes p).value = 0x80000000#32 ∧
    t.time = s.time ∧ t.hist = s.hist) ∧
  (∀ s p r, s.survey.job = .converting p r → s.icode = 0 → exec .excitationFault s = .next s) ∧
  (∀ k a s, k < 64 → (s.srvRes k).postedAt.isSome = true → s.fld Reg.srvStale 15 0 < a → a ≤ s.srvAge k →
    Answers (.resultStale k a) s fun t => t.srvRes k = { s.srvRes k with status := (s.srvRes k).status ||| 0x80#8 } ∧
    (∀ j, j ≠ k → t.srvRes j = s.srvRes j) ∧ t = { s with survey := { s.survey with results := t.survey.results } }) ∧
  (∀ k a s, (s.srvRes k).postedAt = none ∨ s.srvAge k ≤ s.fld Reg.srvStale 15 0 → exec (.resultStale k a) s = .next s) ∧
  (∀ ring s f, Accepts s ring f 0x30 → f.body 0 1 < 64 → f.body 1 1 < 2 → f.zero 2 46 = true → s.ptEn (f.body 0 1) = true →
    s.survey.reads.length < 8 → Answers (.srvRead ring) s fun t => t.ctl.committed = s.ctl.committed ∧
      t.survey.reads = s.survey.reads ++ [⟨ring, f.sq, f.tag, f.body 0 1, f.body 1 1 == 1, false⟩] ∧
      (s.survey.job = .idle → s.survey.reads = [] → t.survey.job = .settling (f.body 0 1) true) ∧
      (s.survey.job ≠ .idle → t.survey.job = s.survey.job) ∧ t = { s with survey := t.survey, ctl := t.ctl }) ∧
  (∀ ring s f, Accepts s ring f 0x30 → (64 ≤ f.body 0 1 ∨ 2 ≤ f.body 1 1 ∨ f.zero 2 46 = false) → Answers (.srvRead ring) s fun t =>
    Finished ring f Status.badDescriptor s t ∧ t = { s with ctl := t.ctl }) ∧
  (∀ ring s f, Accepts s ring f 0x30 → f.body 0 1 < 64 → f.body 1 1 < 2 → f.zero 2 46 = true →
    (s.ptEn (f.body 0 1) = false ∨ 8 ≤ s.survey.reads.length) → Answers (.srvRead ring) s fun t =>
      Finished ring f (if s.ptEn (f.body 0 1) then Status.noSlot else Status.notFound) s t ∧ t = { s with ctl := t.ctl }) ∧
  (∀ ring s f, Accepts s ring f 0x31 → 1024 ≤ f.body 16 4 → f.zero 0 8 = true → f.zero 20 28 = true → f.body 8 8 % 8 = 0 →
    (s.tryShare 7 0 fun t => t.acceptRun ring f fun f t => t.srvDump ring f).isSome = true →
    Answers (.srvDump ring) s fun t => Finished ring f Status.ok s t ∧ t.survey = s.survey ∧ SameRegs [Reg.memStat] s t ∧
      t.time = s.time ∧ t.hist = s.hist) ∧
  (∀ a b s p r l, s.survey.job = .settling p true → s.survey.reads = r :: l → p < 64 →
    (s.icode = 0 → bit s.survey.ptB 19 = true ∧ b = true) → (s.icode ≠ 0 → a = true) → Answers (.surveySettlingEnd a b) s fun t =>
      (t.srvRes p).status.toNat % 128 = 1 ∧ (t.srvRes p).code = 0x800000#24 ∧ t.survey.reads = l ∧
      Committed r.ring r.sq Status.openInput r.tag s t ∧ t.time = s.time ∧ t.hist = s.hist) ∧
  (∀ s p r l, s.survey.job = .converting p true → s.survey.reads = r :: l → s.icode ≠ 0 → p < 64 →
    Answers .excitationFault s fun t => (t.srvRes p).status.toNat % 128 = 1 ∧ (t.srvRes p).code = 0x800000#24 ∧
      t.survey.reads = l ∧ Committed r.ring r.sq Status.openInput r.tag s t ∧ t.time = s.time ∧ t.hist = s.hist)

/-- Off a conversion every SV pin is a high-impedance input and every excitation source is off. While a point is converted its
POS pin is the positive input; its excitation source drives its EXC_PIN with its ICODE and no other source drives one, whatever
pins are named, and with ICODE 0 none does: the open test then drives its 1 µA into POS while the point settles. In reset the
survey pins are high impedance, the SPI inputs ignored, HUB_OK low and ALERT_N released; in RUN the SPI is served, HUB_OK is high
and an SV pin that no conversion uses stays high impedance; a closed bypass joins the Brix balls and releases BYPASS_ST. -/
def Obligations.SurveyPinsFollowTheConversion : Prop :=
  (∀ (s : State) k, s.srvOn = false → s.svPin k = .highZ ∧ s.sourceOn k = none) ∧
  (∀ (s : State) k, s.srvOn = true → bits s.survey.ptA 5 0 = k → (s.svPin k).pos = true) ∧
  (∀ (s : State) k, s.srvOn = true → ((s.svPin k).neg = true ↔ bit s.survey.ptA 6 = false ∧ bits s.survey.ptA 13 8 = k)) ∧
  (∀ (s : State) k m i, (s.svPin k).drive = some (m, i) → s.srvOn = true ∧ i ≠ 0 ∧ i = s.icode ∧ m = bits s.survey.ptA 24 22 ∧
    s.sourceOn m = some i) ∧
  (∀ (s : State) k m, s.sourceOn k ≠ none → s.sourceOn m ≠ none → k = m) ∧
  (∀ (s : State) k, (s.svPin k).test = true → s.icode = 0 ∧ bit s.survey.ptB 19 = true ∧ k = bits s.survey.ptA 5 0) ∧
  (∀ (s : State) cs k, s.power.phase = .rails → s.ball cs (.sv k) = .highZ ∧ s.ball cs .svcom = .highZ ∧ s.ball cs .spiIn = .input false ∧
    s.ball cs .spiMiso = .highZ ∧ s.ball cs .hubOk = .driven false ∧ s.ball cs .alertN = .openDrain false) ∧
  (∀ (s : State) cs k, s.power.phase = .run → s.ball cs .spiIn = .input true ∧ s.ball cs .hubOk = .driven true ∧
    s.ball true .spiMiso = .reply ∧ s.ball false .spiMiso = .highZ ∧
    (bit (s.reg Reg.srvCtl) 0 = true → s.ball cs .svcom = .level 600) ∧
    (s.srvOn = false → s.ball cs (.sv k) = .highZ ∨ s.ball cs (.sv k) = .survey .highZ)) ∧
  (∀ (s : State) cs pt, s.brix.bypassOpen = false → s.ball cs (.brixRx pt) = .bypassed (s.power.pllLocked || s.time.sampling) ∧
    s.ball cs (.brixTx pt) = .bypassed false ∧ s.ball cs .bypassSt = .openDrain false)
end

