-- ==== Sys2Proof/Laws/Tab.lean ====
section
/-!
SUPPORT. Laws of the sparse tables: reading after writing, and that every operation keeps the canonical form.
-/

namespace Sys2Proof.Machine

open Sys2Proof

variable {α : Type}

@[simp] theorem tabGet_nil (d : α) (k : Nat) : tabGet d [] k = d := rfl

theorem tabGet_tabDel_same (d : α) (t : Tab α) (k : Nat) : tabGet d (tabDel t k) k = d := by
  induction t with
  | nil => rfl
  | cons e t ih =>
    obtain ⟨i, v⟩ := e
    simp only [tabDel]
    split
    · exact ih
    · simp [tabGet, *]

theorem tabGet_tabDel_ne (d : α) (t : Tab α) {k j : Nat} (h : j ≠ k) : tabGet d (tabDel t k) j = tabGet d t j := by
  induction t with
  | nil => rfl
  | cons e t ih =>
    obtain ⟨i, v⟩ := e
    simp only [tabDel, tabGet]
    split
    · subst_vars; simp [ih, Ne.symm h]
    · simp [tabGet, ih]

theorem tabGet_tabIns_same (d : α) (t : Tab α) (k : Nat) (v : α) : tabGet d (tabIns t k v) k = v := by
  induction t with
  | nil => simp [tabIns, tabGet]
  | cons e t ih =>
    obtain ⟨i, w⟩ := e
    simp only [tabIns]
    split
    · simp [tabGet]
    · split
      · simp [tabGet]
      · simp [tabGet, *]

theorem tabGet_tabIns_ne (d : α) (t : Tab α) {k j : Nat} (v : α) (h : j ≠ k) :
    tabGet d (tabIns t k v) j = tabGet d t j := by
  induction t with
  | nil => simp [tabIns, tabGet, Ne.symm h]
  | cons e t ih =>
    obtain ⟨i, w⟩ := e
    simp only [tabIns]
    split
    · subst_vars; simp [tabGet, Ne.symm h]
    · split
      · simp [tabGet, Ne.symm h]
      · simp [tabGet, ih]

/-- A key reads as it was last set. -/
theorem tabGet_tabSet_same [DecidableEq α] (d : α) (t : Tab α) (k : Nat) (v : α) : tabGet d (tabSet d t k v) k = v := by
  unfold tabSet
  split
  · subst_vars; exact tabGet_tabDel_same _ _ _
  · exact tabGet_tabIns_same _ _ _ _

/-- Setting a key leaves what every other key reads as. -/
theorem tabGet_tabSet_ne [DecidableEq α] (d d' : α) (t : Tab α) {k j : Nat} (v : α) (h : j ≠ k) :
    tabGet d' (tabSet d t k v) j = tabGet d' t j := by
  unfold tabSet
  split
  · exact tabGet_tabDel_ne _ _ h
  · exact tabGet_tabIns_ne _ _ _ h

/-! ### The canonical form -/

theorem tabWfFrom_mono [DecidableEq α] (d : Nat → α) {a b : Nat} (t : Tab α) (h : a ≤ b) (w : tabWfFrom d b t = true) :
    tabWfFrom d a t = true := by
  cases t with
  | nil => rfl
  | cons e t =>
    obtain ⟨i, v⟩ := e
    simp only [tabWfFrom, Bool.and_eq_true, decide_eq_true_eq] at w ⊢
    exact ⟨⟨by omega, w.1.2⟩, w.2⟩

theorem tabDel_wfFrom [DecidableEq α] (d : Nat → α) (k : Nat) (t : Tab α) (a : Nat) (w : tabWfFrom d a t = true) :
    tabWfFrom d a (tabDel t k) = true := by
  induction t generalizing a with
  | nil => rfl
  | cons e t ih =>
    obtain ⟨i, v⟩ := e
    simp only [tabWfFrom, Bool.and_eq_true, decide_eq_true_eq] at w
    simp only [tabDel]
    split
    · exact ih a (tabWfFrom_mono d t (by omega) w.2)
    · simp only [tabWfFrom, Bool.and_eq_true, decide_eq_true_eq]
      exact ⟨w.1, ih _ w.2⟩

theorem tabIns_wfFrom [DecidableEq α] (d : Nat → α) (k : Nat) (v : α) (hv : v ≠ d k) (t : Tab α) (a : Nat) (ha : a ≤ k)
    (w : tabWfFrom d a t = true) : tabWfFrom d a (tabIns t k v) = true := by
  induction t generalizing a with
  | nil => simp [tabIns, tabWfFrom, ha, hv]
  | cons e t ih =>
    obtain ⟨i, u⟩ := e
    simp only [tabWfFrom, Bool.and_eq_true, decide_eq_true_eq] at w
    simp only [tabIns]
    split
    · subst_vars
      simp only [tabWfFrom, Bool.and_eq_true, decide_eq_true_eq]
      exact ⟨⟨ha, hv⟩, w.2⟩
    · split
      · simp only [tabWfFrom, Bool.and_eq_true, decide_eq_true_eq]
        exact ⟨⟨ha, hv⟩, ⟨by omega, w.1.2⟩, w.2⟩
      · simp only [tabWfFrom, Bool.and_eq_true, decide_eq_true_eq]
        exact ⟨w.1, ih _ (by omega) w.2⟩

/-- Setting a key keeps the canonical form. -/
theorem tabSet_wf [DecidableEq α] (d : Nat → α) (t : Tab α) (k : Nat) (v : α) (w : tabWf d t = true) :
    tabWf d (tabSet (d k) t k v) = true := by
  unfold tabSet
  split
  · exact tabDel_wfFrom d k t 0 w
  · exact tabIns_wfFrom d k v (by assumption) t 0 (Nat.zero_le _) w

theorem tabDel_mem (t : Tab α) (k : Nat) {e : Nat × α} (h : e ∈ tabDel t k) : e ∈ t := by
  induction t with
  | nil => exact h
  | cons a t ih =>
    obtain ⟨i, v⟩ := a
    simp only [tabDel] at h
    split at h
    · exact List.mem_cons_of_mem _ (ih h)
    · cases h with
      | head => exact List.mem_cons_self
      | tail _ h => exact List.mem_cons_of_mem _ (ih h)

theorem tabIns_mem (t : Tab α) (k : Nat) (v : α) {e : Nat × α} (h : e ∈ tabIns t k v) : e = (k, v) ∨ e ∈ t := by
  induction t with
  | nil => simpa [tabIns] using h
  | cons a t ih =>
    obtain ⟨i, u⟩ := a
    simp only [tabIns] at h
    split at h
    · cases h with
      | head => exact .inl rfl
      | tail _ h => exact .inr (List.mem_cons_of_mem _ h)
    · split at h
      · cases h with
        | head => exact .inl rfl
        | tail _ h => exact .inr h
      · cases h with
        | head => exact .inr List.mem_cons_self
        | tail _ h =>
          cases ih h with
          | inl h => exact .inl h
          | inr h => exact .inr (List.mem_cons_of_mem _ h)

/-- An entry of a table after a key was set is that key's or was there before. -/
theorem tabSet_mem [DecidableEq α] (d : α) (t : Tab α) (k : Nat) (v : α) {e : Nat × α} (h : e ∈ tabSet d t k v) :
    e = (k, v) ∨ e ∈ t := by
  unfold tabSet at h
  split at h
  · exact .inr (tabDel_mem t k h)
  · exact tabIns_mem t k v h

end Sys2Proof.Machine
end

