-- ==== Sys2Proof/Laws/State.lean ====
section
/-!
SUPPORT. What each named operation over State leaves alone, and what reading gives after it: the lemmas that later proofs
cite in place of unfolding a record update. A conjunction stands for one rewriting rule per field.
-/

namespace Sys2Proof.Machine

open Sys2Proof

variable (s : State)

/-- What `setReg` leaves alone. -/
@[simp] theorem State.setReg_frame (a : Nat) (v : Word) :
    (s.setReg a v).effRegs = s.effRegs ∧ (s.setReg a v).spi = s.spi ∧ (s.setReg a v).downlink = s.downlink ∧
    (s.setReg a v).stakePath = s.stakePath ∧ (s.setReg a v).time = s.time ∧ (s.setReg a v).servo = s.servo ∧
    (s.setReg a v).ref = s.ref ∧ (s.setReg a v).power = s.power ∧ (s.setReg a v).stakes = s.stakes ∧
    (s.setReg a v).ties = s.ties ∧ (s.setReg a v).tseq = s.tseq ∧ (s.setReg a v).tieFlags = s.tieFlags ∧
    (s.setReg a v).dla = s.dla ∧ (s.setReg a v).dlb = s.dlb ∧ (s.setReg a v).brixP = s.brixP ∧
    (s.setReg a v).brixQ = s.brixQ ∧ (s.setReg a v).fseq = s.fseq ∧ (s.setReg a v).txLanes = s.txLanes ∧
    (s.setReg a v).spool = s.spool ∧ (s.setReg a v).ctl = s.ctl ∧ (s.setReg a v).brix = s.brix ∧
    (s.setReg a v).chans = s.chans ∧ (s.setReg a v).slices = s.slices ∧ (s.setReg a v).stations = s.stations ∧
    (s.setReg a v).sources = s.sources ∧ (s.setReg a v).dcTest = s.dcTest ∧ (s.setReg a v).pipe = s.pipe ∧
    (s.setReg a v).trig = s.trig ∧ (s.setReg a v).hist = s.hist ∧ (s.setReg a v).survey = s.survey ∧
    (s.setReg a v).mem = s.mem ∧ (s.setReg a v).fw = s.fw ∧ (s.setReg a v).railMv = s.railMv ∧
    (s.setReg a v).railMin = s.railMin ∧ (s.setReg a v).scan = s.scan ∧ (s.setReg a v).tx = s.tx ∧
    (s.setReg a v).fresh = s.fresh ∧ (s.setReg a v).pending = s.pending := by
  and_intros <;> rfl

/-- What `orReg` leaves alone. -/
@[simp] theorem State.orReg_frame (a : Nat) (m : Word) :
    (s.orReg a m).effRegs = s.effRegs ∧ (s.orReg a m).spi = s.spi ∧ (s.orReg a m).downlink = s.downlink ∧
    (s.orReg a m).stakePath = s.stakePath ∧ (s.orReg a m).time = s.time ∧ (s.orReg a m).servo = s.servo ∧
    (s.orReg a m).ref = s.ref ∧ (s.orReg a m).power = s.power ∧ (s.orReg a m).stakes = s.stakes ∧
    (s.orReg a m).ties = s.ties ∧ (s.orReg a m).tseq = s.tseq ∧ (s.orReg a m).tieFlags = s.tieFlags ∧
    (s.orReg a m).dla = s.dla ∧ (s.orReg a m).dlb = s.dlb ∧ (s.orReg a m).brixP = s.brixP ∧
    (s.orReg a m).brixQ = s.brixQ ∧ (s.orReg a m).fseq = s.fseq ∧ (s.orReg a m).txLanes = s.txLanes ∧
    (s.orReg a m).spool = s.spool ∧ (s.orReg a m).ctl = s.ctl ∧ (s.orReg a m).brix = s.brix ∧
    (s.orReg a m).chans = s.chans ∧ (s.orReg a m).slices = s.slices ∧ (s.orReg a m).stations = s.stations ∧
    (s.orReg a m).sources = s.sources ∧ (s.orReg a m).dcTest = s.dcTest ∧ (s.orReg a m).pipe = s.pipe ∧
    (s.orReg a m).trig = s.trig ∧ (s.orReg a m).hist = s.hist ∧ (s.orReg a m).survey = s.survey ∧
    (s.orReg a m).mem = s.mem ∧ (s.orReg a m).fw = s.fw ∧ (s.orReg a m).railMv = s.railMv ∧
    (s.orReg a m).railMin = s.railMin ∧ (s.orReg a m).scan = s.scan ∧ (s.orReg a m).tx = s.tx ∧
    (s.orReg a m).fresh = s.fresh ∧ (s.orReg a m).pending = s.pending := by
  and_intros <;> rfl

/-- What `event` leaves alone. -/
@[simp] theorem State.event_frame (a b : Nat) :
    (s.event a b).effRegs = s.effRegs ∧ (s.event a b).spi = s.spi ∧ (s.event a b).downlink = s.downlink ∧
    (s.event a b).stakePath = s.stakePath ∧ (s.event a b).time = s.time ∧ (s.event a b).servo = s.servo ∧
    (s.event a b).ref = s.ref ∧ (s.event a b).power = s.power ∧ (s.event a b).stakes = s.stakes ∧
    (s.event a b).ties = s.ties ∧ (s.event a b).tseq = s.tseq ∧ (s.event a b).tieFlags = s.tieFlags ∧
    (s.event a b).dla = s.dla ∧ (s.event a b).dlb = s.dlb ∧ (s.event a b).brixP = s.brixP ∧
    (s.event a b).brixQ = s.brixQ ∧ (s.event a b).fseq = s.fseq ∧ (s.event a b).txLanes = s.txLanes ∧
    (s.event a b).spool = s.spool ∧ (s.event a b).ctl = s.ctl ∧ (s.event a b).brix = s.brix ∧
    (s.event a b).chans = s.chans ∧ (s.event a b).slices = s.slices ∧ (s.event a b).stations = s.stations ∧
    (s.event a b).sources = s.sources ∧ (s.event a b).dcTest = s.dcTest ∧ (s.event a b).pipe = s.pipe ∧
    (s.event a b).trig = s.trig ∧ (s.event a b).hist = s.hist ∧ (s.event a b).survey = s.survey ∧
    (s.event a b).mem = s.mem ∧ (s.event a b).fw = s.fw ∧ (s.event a b).railMv = s.railMv ∧
    (s.event a b).railMin = s.railMin ∧ (s.event a b).scan = s.scan ∧ (s.event a b).tx = s.tx ∧
    (s.event a b).fresh = s.fresh ∧ (s.event a b).pending = s.pending := by
  and_intros <;> rfl

/-- What `setFld` leaves alone. -/
@[simp] theorem State.setFld_frame (a h l n : Nat) :
    (s.setFld a h l n).effRegs = s.effRegs ∧ (s.setFld a h l n).spi = s.spi ∧
    (s.setFld a h l n).downlink = s.downlink ∧ (s.setFld a h l n).stakePath = s.stakePath ∧
    (s.setFld a h l n).time = s.time ∧ (s.setFld a h l n).servo = s.servo ∧ (s.setFld a h l n).ref = s.ref ∧
    (s.setFld a h l n).power = s.power ∧ (s.setFld a h l n).stakes = s.stakes ∧ (s.setFld a h l n).ties = s.ties ∧
    (s.setFld a h l n).tseq = s.tseq ∧ (s.setFld a h l n).tieFlags = s.tieFlags ∧ (s.setFld a h l n).dla = s.dla ∧
    (s.setFld a h l n).dlb = s.dlb ∧ (s.setFld a h l n).brixP = s.brixP ∧ (s.setFld a h l n).brixQ = s.brixQ ∧
    (s.setFld a h l n).fseq = s.fseq ∧ (s.setFld a h l n).txLanes = s.txLanes ∧ (s.setFld a h l n).spool = s.spool ∧
    (s.setFld a h l n).ctl = s.ctl ∧ (s.setFld a h l n).brix = s.brix ∧ (s.setFld a h l n).chans = s.chans ∧
    (s.setFld a h l n).slices = s.slices ∧ (s.setFld a h l n).stations = s.stations ∧
    (s.setFld a h l n).sources = s.sources ∧ (s.setFld a h l n).dcTest = s.dcTest ∧
    (s.setFld a h l n).pipe = s.pipe ∧ (s.setFld a h l n).trig = s.trig ∧ (s.setFld a h l n).hist = s.hist ∧
    (s.setFld a h l n).survey = s.survey ∧ (s.setFld a h l n).mem = s.mem ∧ (s.setFld a h l n).fw = s.fw ∧
    (s.setFld a h l n).railMv = s.railMv ∧ (s.setFld a h l n).railMin = s.railMin ∧
    (s.setFld a h l n).scan = s.scan ∧ (s.setFld a h l n).tx = s.tx ∧ (s.setFld a h l n).fresh = s.fresh ∧
    (s.setFld a h l n).pending = s.pending := by
  and_intros <;> rfl

/-- What `countFld` leaves alone. -/
@[simp] theorem State.countFld_frame (a h l : Nat) :
    (s.countFld a h l).effRegs = s.effRegs ∧ (s.countFld a h l).spi = s.spi ∧
    (s.countFld a h l).downlink = s.downlink ∧ (s.countFld a h l).stakePath = s.stakePath ∧
    (s.countFld a h l).time = s.time ∧ (s.countFld a h l).servo = s.servo ∧ (s.countFld a h l).ref = s.ref ∧
    (s.countFld a h l).power = s.power ∧ (s.countFld a h l).stakes = s.stakes ∧ (s.countFld a h l).ties = s.ties ∧
    (s.countFld a h l).tseq = s.tseq ∧ (s.countFld a h l).tieFlags = s.tieFlags ∧ (s.countFld a h l).dla = s.dla ∧
    (s.countFld a h l).dlb = s.dlb ∧ (s.countFld a h l).brixP = s.brixP ∧ (s.countFld a h l).brixQ = s.brixQ ∧
    (s.countFld a h l).fseq = s.fseq ∧ (s.countFld a h l).txLanes = s.txLanes ∧ (s.countFld a h l).spool = s.spool ∧
    (s.countFld a h l).ctl = s.ctl ∧ (s.countFld a h l).brix = s.brix ∧ (s.countFld a h l).chans = s.chans ∧
    (s.countFld a h l).slices = s.slices ∧ (s.countFld a h l).stations = s.stations ∧
    (s.countFld a h l).sources = s.sources ∧ (s.countFld a h l).dcTest = s.dcTest ∧
    (s.countFld a h l).pipe = s.pipe ∧ (s.countFld a h l).trig = s.trig ∧ (s.countFld a h l).hist = s.hist ∧
    (s.countFld a h l).survey = s.survey ∧ (s.countFld a h l).mem = s.mem ∧ (s.countFld a h l).fw = s.fw ∧
    (s.countFld a h l).railMv = s.railMv ∧ (s.countFld a h l).railMin = s.railMin ∧
    (s.countFld a h l).scan = s.scan ∧ (s.countFld a h l).tx = s.tx ∧ (s.countFld a h l).fresh = s.fresh ∧
    (s.countFld a h l).pending = s.pending := by
  and_intros <;> rfl

/-- What `addFld` leaves alone. -/
@[simp] theorem State.addFld_frame (a h l n : Nat) :
    (s.addFld a h l n).effRegs = s.effRegs ∧ (s.addFld a h l n).spi = s.spi ∧
    (s.addFld a h l n).downlink = s.downlink ∧ (s.addFld a h l n).stakePath = s.stakePath ∧
    (s.addFld a h l n).time = s.time ∧ (s.addFld a h l n).servo = s.servo ∧ (s.addFld a h l n).ref = s.ref ∧
    (s.addFld a h l n).power = s.power ∧ (s.addFld a h l n).stakes = s.stakes ∧ (s.addFld a h l n).ties = s.ties ∧
    (s.addFld a h l n).tseq = s.tseq ∧ (s.addFld a h l n).tieFlags = s.tieFlags ∧ (s.addFld a h l n).dla = s.dla ∧
    (s.addFld a h l n).dlb = s.dlb ∧ (s.addFld a h l n).brixP = s.brixP ∧ (s.addFld a h l n).brixQ = s.brixQ ∧
    (s.addFld a h l n).fseq = s.fseq ∧ (s.addFld a h l n).txLanes = s.txLanes ∧ (s.addFld a h l n).spool = s.spool ∧
    (s.addFld a h l n).ctl = s.ctl ∧ (s.addFld a h l n).brix = s.brix ∧ (s.addFld a h l n).chans = s.chans ∧
    (s.addFld a h l n).slices = s.slices ∧ (s.addFld a h l n).stations = s.stations ∧
    (s.addFld a h l n).sources = s.sources ∧ (s.addFld a h l n).dcTest = s.dcTest ∧
    (s.addFld a h l n).pipe = s.pipe ∧ (s.addFld a h l n).trig = s.trig ∧ (s.addFld a h l n).hist = s.hist ∧
    (s.addFld a h l n).survey = s.survey ∧ (s.addFld a h l n).mem = s.mem ∧ (s.addFld a h l n).fw = s.fw ∧
    (s.addFld a h l n).railMv = s.railMv ∧ (s.addFld a h l n).railMin = s.railMin ∧
    (s.addFld a h l n).scan = s.scan ∧ (s.addFld a h l n).tx = s.tx ∧ (s.addFld a h l n).fresh = s.fresh ∧
    (s.addFld a h l n).pending = s.pending := by
  and_intros <;> rfl

/-- What `setEff` leaves alone. -/
@[simp] theorem State.setEff_frame (a : Nat) (v : Word) :
    (s.setEff a v).regs = s.regs ∧ (s.setEff a v).spi = s.spi ∧ (s.setEff a v).downlink = s.downlink ∧
    (s.setEff a v).stakePath = s.stakePath ∧ (s.setEff a v).time = s.time ∧ (s.setEff a v).servo = s.servo ∧
    (s.setEff a v).ref = s.ref ∧ (s.setEff a v).power = s.power ∧ (s.setEff a v).stakes = s.stakes ∧
    (s.setEff a v).ties = s.ties ∧ (s.setEff a v).tseq = s.tseq ∧ (s.setEff a v).tieFlags = s.tieFlags ∧
    (s.setEff a v).dla = s.dla ∧ (s.setEff a v).dlb = s.dlb ∧ (s.setEff a v).brixP = s.brixP ∧
    (s.setEff a v).brixQ = s.brixQ ∧ (s.setEff a v).fseq = s.fseq ∧ (s.setEff a v).txLanes = s.txLanes ∧
    (s.setEff a v).spool = s.spool ∧ (s.setEff a v).ctl = s.ctl ∧ (s.setEff a v).brix = s.brix ∧
    (s.setEff a v).chans = s.chans ∧ (s.setEff a v).slices = s.slices ∧ (s.setEff a v).stations = s.stations ∧
    (s.setEff a v).sources = s.sources ∧ (s.setEff a v).dcTest = s.dcTest ∧ (s.setEff a v).pipe = s.pipe ∧
    (s.setEff a v).trig = s.trig ∧ (s.setEff a v).hist = s.hist ∧ (s.setEff a v).survey = s.survey ∧
    (s.setEff a v).mem = s.mem ∧ (s.setEff a v).fw = s.fw ∧ (s.setEff a v).railMv = s.railMv ∧
    (s.setEff a v).railMin = s.railMin ∧ (s.setEff a v).scan = s.scan ∧ (s.setEff a v).tx = s.tx ∧
    (s.setEff a v).fresh = s.fresh ∧ (s.setEff a v).pending = s.pending := by
  and_intros <;> rfl

/-- What `setChan` leaves alone. -/
@[simp] theorem State.setChan_frame (c : Nat) (v : Channel) :
    (s.setChan c v).regs = s.regs ∧ (s.setChan c v).effRegs = s.effRegs ∧ (s.setChan c v).spi = s.spi ∧
    (s.setChan c v).downlink = s.downlink ∧ (s.setChan c v).stakePath = s.stakePath ∧
    (s.setChan c v).time = s.time ∧ (s.setChan c v).servo = s.servo ∧ (s.setChan c v).ref = s.ref ∧
    (s.setChan c v).power = s.power ∧ (s.setChan c v).stakes = s.stakes ∧ (s.setChan c v).ties = s.ties ∧
    (s.setChan c v).tseq = s.tseq ∧ (s.setChan c v).tieFlags = s.tieFlags ∧ (s.setChan c v).dla = s.dla ∧
    (s.setChan c v).dlb = s.dlb ∧ (s.setChan c v).brixP = s.brixP ∧ (s.setChan c v).brixQ = s.brixQ ∧
    (s.setChan c v).fseq = s.fseq ∧ (s.setChan c v).txLanes = s.txLanes ∧ (s.setChan c v).spool = s.spool ∧
    (s.setChan c v).ctl = s.ctl ∧ (s.setChan c v).brix = s.brix ∧ (s.setChan c v).slices = s.slices ∧
    (s.setChan c v).stations = s.stations ∧ (s.setChan c v).sources = s.sources ∧
    (s.setChan c v).dcTest = s.dcTest ∧ (s.setChan c v).pipe = s.pipe ∧ (s.setChan c v).trig = s.trig ∧
    (s.setChan c v).hist = s.hist ∧ (s.setChan c v).survey = s.survey ∧ (s.setChan c v).mem = s.mem ∧
    (s.setChan c v).fw = s.fw ∧ (s.setChan c v).railMv = s.railMv ∧ (s.setChan c v).railMin = s.railMin ∧
    (s.setChan c v).scan = s.scan ∧ (s.setChan c v).tx = s.tx ∧ (s.setChan c v).fresh = s.fresh ∧
    (s.setChan c v).pending = s.pending := by
  and_intros <;> rfl

/-- What `setSlice` leaves alone. -/
@[simp] theorem State.setSlice_frame (j : Nat) (v : Slice) :
    (s.setSlice j v).regs = s.regs ∧ (s.setSlice j v).effRegs = s.effRegs ∧ (s.setSlice j v).spi = s.spi ∧
    (s.setSlice j v).downlink = s.downlink ∧ (s.setSlice j v).stakePath = s.stakePath ∧
    (s.setSlice j v).time = s.time ∧ (s.setSlice j v).servo = s.servo ∧ (s.setSlice j v).ref = s.ref ∧
    (s.setSlice j v).power = s.power ∧ (s.setSlice j v).stakes = s.stakes ∧ (s.setSlice j v).ties = s.ties ∧
    (s.setSlice j v).tseq = s.tseq ∧ (s.setSlice j v).tieFlags = s.tieFlags ∧ (s.setSlice j v).dla = s.dla ∧
    (s.setSlice j v).dlb = s.dlb ∧ (s.setSlice j v).brixP = s.brixP ∧ (s.setSlice j v).brixQ = s.brixQ ∧
    (s.setSlice j v).fseq = s.fseq ∧ (s.setSlice j v).txLanes = s.txLanes ∧ (s.setSlice j v).spool = s.spool ∧
    (s.setSlice j v).ctl = s.ctl ∧ (s.setSlice j v).brix = s.brix ∧ (s.setSlice j v).chans = s.chans ∧
    (s.setSlice j v).stations = s.stations ∧ (s.setSlice j v).sources = s.sources ∧
    (s.setSlice j v).dcTest = s.dcTest ∧ (s.setSlice j v).pipe = s.pipe ∧ (s.setSlice j v).trig = s.trig ∧
    (s.setSlice j v).hist = s.hist ∧ (s.setSlice j v).survey = s.survey ∧ (s.setSlice j v).mem = s.mem ∧
    (s.setSlice j v).fw = s.fw ∧ (s.setSlice j v).railMv = s.railMv ∧ (s.setSlice j v).railMin = s.railMin ∧
    (s.setSlice j v).scan = s.scan ∧ (s.setSlice j v).tx = s.tx ∧ (s.setSlice j v).fresh = s.fresh ∧
    (s.setSlice j v).pending = s.pending := by
  and_intros <;> rfl

/-- What `setStn` leaves alone. -/
@[simp] theorem State.setStn_frame (j : Nat) (v : Station) :
    (s.setStn j v).regs = s.regs ∧ (s.setStn j v).effRegs = s.effRegs ∧ (s.setStn j v).spi = s.spi ∧
    (s.setStn j v).downlink = s.downlink ∧ (s.setStn j v).stakePath = s.stakePath ∧ (s.setStn j v).time = s.time ∧
    (s.setStn j v).servo = s.servo ∧ (s.setStn j v).ref = s.ref ∧ (s.setStn j v).power = s.power ∧
    (s.setStn j v).stakes = s.stakes ∧ (s.setStn j v).ties = s.ties ∧ (s.setStn j v).tseq = s.tseq ∧
    (s.setStn j v).tieFlags = s.tieFlags ∧ (s.setStn j v).dla = s.dla ∧ (s.setStn j v).dlb = s.dlb ∧
    (s.setStn j v).brixP = s.brixP ∧ (s.setStn j v).brixQ = s.brixQ ∧ (s.setStn j v).fseq = s.fseq ∧
    (s.setStn j v).txLanes = s.txLanes ∧ (s.setStn j v).spool = s.spool ∧ (s.setStn j v).ctl = s.ctl ∧
    (s.setStn j v).brix = s.brix ∧ (s.setStn j v).chans = s.chans ∧ (s.setStn j v).slices = s.slices ∧
    (s.setStn j v).sources = s.sources ∧ (s.setStn j v).dcTest = s.dcTest ∧ (s.setStn j v).pipe = s.pipe ∧
    (s.setStn j v).trig = s.trig ∧ (s.setStn j v).hist = s.hist ∧ (s.setStn j v).survey = s.survey ∧
    (s.setStn j v).mem = s.mem ∧ (s.setStn j v).fw = s.fw ∧ (s.setStn j v).railMv = s.railMv ∧
    (s.setStn j v).railMin = s.railMin ∧ (s.setStn j v).scan = s.scan ∧ (s.setStn j v).tx = s.tx ∧
    (s.setStn j v).fresh = s.fresh ∧ (s.setStn j v).pending = s.pending := by
  and_intros <;> rfl

/-- What `setSrc` leaves alone. -/
@[simp] theorem State.setSrc_frame (j : Nat) (v : InjSource) :
    (s.setSrc j v).regs = s.regs ∧ (s.setSrc j v).effRegs = s.effRegs ∧ (s.setSrc j v).spi = s.spi ∧
    (s.setSrc j v).downlink = s.downlink ∧ (s.setSrc j v).stakePath = s.stakePath ∧ (s.setSrc j v).time = s.time ∧
    (s.setSrc j v).servo = s.servo ∧ (s.setSrc j v).ref = s.ref ∧ (s.setSrc j v).power = s.power ∧
    (s.setSrc j v).stakes = s.stakes ∧ (s.setSrc j v).ties = s.ties ∧ (s.setSrc j v).tseq = s.tseq ∧
    (s.setSrc j v).tieFlags = s.tieFlags ∧ (s.setSrc j v).dla = s.dla ∧ (s.setSrc j v).dlb = s.dlb ∧
    (s.setSrc j v).brixP = s.brixP ∧ (s.setSrc j v).brixQ = s.brixQ ∧ (s.setSrc j v).fseq = s.fseq ∧
    (s.setSrc j v).txLanes = s.txLanes ∧ (s.setSrc j v).spool = s.spool ∧ (s.setSrc j v).ctl = s.ctl ∧
    (s.setSrc j v).brix = s.brix ∧ (s.setSrc j v).chans = s.chans ∧ (s.setSrc j v).slices = s.slices ∧
    (s.setSrc j v).stations = s.stations ∧ (s.setSrc j v).dcTest = s.dcTest ∧ (s.setSrc j v).pipe = s.pipe ∧
    (s.setSrc j v).trig = s.trig ∧ (s.setSrc j v).hist = s.hist ∧ (s.setSrc j v).survey = s.survey ∧
    (s.setSrc j v).mem = s.mem ∧ (s.setSrc j v).fw = s.fw ∧ (s.setSrc j v).railMv = s.railMv ∧
    (s.setSrc j v).railMin = s.railMin ∧ (s.setSrc j v).scan = s.scan ∧ (s.setSrc j v).tx = s.tx ∧
    (s.setSrc j v).fresh = s.fresh ∧ (s.setSrc j v).pending = s.pending := by
  and_intros <;> rfl

/-- What `setLane` leaves alone. -/
@[simp] theorem State.setLane_frame (n : Nat) (v : TxLane) :
    (s.setLane n v).regs = s.regs ∧ (s.setLane n v).effRegs = s.effRegs ∧ (s.setLane n v).spi = s.spi ∧
    (s.setLane n v).downlink = s.downlink ∧ (s.setLane n v).stakePath = s.stakePath ∧
    (s.setLane n v).time = s.time ∧ (s.setLane n v).servo = s.servo ∧ (s.setLane n v).ref = s.ref ∧
    (s.setLane n v).power = s.power ∧ (s.setLane n v).stakes = s.stakes ∧ (s.setLane n v).ties = s.ties ∧
    (s.setLane n v).tseq = s.tseq ∧ (s.setLane n v).tieFlags = s.tieFlags ∧ (s.setLane n v).dla = s.dla ∧
    (s.setLane n v).dlb = s.dlb ∧ (s.setLane n v).brixP = s.brixP ∧ (s.setLane n v).brixQ = s.brixQ ∧
    (s.setLane n v).fseq = s.fseq ∧ (s.setLane n v).spool = s.spool ∧ (s.setLane n v).ctl = s.ctl ∧
    (s.setLane n v).brix = s.brix ∧ (s.setLane n v).chans = s.chans ∧ (s.setLane n v).slices = s.slices ∧
    (s.setLane n v).stations = s.stations ∧ (s.setLane n v).sources = s.sources ∧
    (s.setLane n v).dcTest = s.dcTest ∧ (s.setLane n v).pipe = s.pipe ∧ (s.setLane n v).trig = s.trig ∧
    (s.setLane n v).hist = s.hist ∧ (s.setLane n v).survey = s.survey ∧ (s.setLane n v).mem = s.mem ∧
    (s.setLane n v).fw = s.fw ∧ (s.setLane n v).railMv = s.railMv ∧ (s.setLane n v).railMin = s.railMin ∧
    (s.setLane n v).scan = s.scan ∧ (s.setLane n v).tx = s.tx ∧ (s.setLane n v).fresh = s.fresh ∧
    (s.setLane n v).pending = s.pending := by
  and_intros <;> rfl

/-- What `setCls` leaves alone. -/
@[simp] theorem State.setCls_frame (c : Nat) (v : SpoolClass) :
    (s.setCls c v).regs = s.regs ∧ (s.setCls c v).effRegs = s.effRegs ∧ (s.setCls c v).spi = s.spi ∧
    (s.setCls c v).downlink = s.downlink ∧ (s.setCls c v).stakePath = s.stakePath ∧ (s.setCls c v).time = s.time ∧
    (s.setCls c v).servo = s.servo ∧ (s.setCls c v).ref = s.ref ∧ (s.setCls c v).power = s.power ∧
    (s.setCls c v).stakes = s.stakes ∧ (s.setCls c v).ties = s.ties ∧ (s.setCls c v).tseq = s.tseq ∧
    (s.setCls c v).tieFlags = s.tieFlags ∧ (s.setCls c v).dla = s.dla ∧ (s.setCls c v).dlb = s.dlb ∧
    (s.setCls c v).brixP = s.brixP ∧ (s.setCls c v).brixQ = s.brixQ ∧ (s.setCls c v).fseq = s.fseq ∧
    (s.setCls c v).txLanes = s.txLanes ∧ (s.setCls c v).ctl = s.ctl ∧ (s.setCls c v).brix = s.brix ∧
    (s.setCls c v).chans = s.chans ∧ (s.setCls c v).slices = s.slices ∧ (s.setCls c v).stations = s.stations ∧
    (s.setCls c v).sources = s.sources ∧ (s.setCls c v).dcTest = s.dcTest ∧ (s.setCls c v).pipe = s.pipe ∧
    (s.setCls c v).trig = s.trig ∧ (s.setCls c v).hist = s.hist ∧ (s.setCls c v).survey = s.survey ∧
    (s.setCls c v).mem = s.mem ∧ (s.setCls c v).fw = s.fw ∧ (s.setCls c v).railMv = s.railMv ∧
    (s.setCls c v).railMin = s.railMin ∧ (s.setCls c v).scan = s.scan ∧ (s.setCls c v).tx = s.tx ∧
    (s.setCls c v).fresh = s.fresh ∧ (s.setCls c v).pending = s.pending := by
  and_intros <;> rfl

/-- What `setRing` leaves alone. -/
@[simp] theorem State.setRing_frame (r : Nat) (v : Ring) :
    (s.setRing r v).regs = s.regs ∧ (s.setRing r v).effRegs = s.effRegs ∧ (s.setRing r v).spi = s.spi ∧
    (s.setRing r v).downlink = s.downlink ∧ (s.setRing r v).stakePath = s.stakePath ∧
    (s.setRing r v).time = s.time ∧ (s.setRing r v).servo = s.servo ∧ (s.setRing r v).ref = s.ref ∧
    (s.setRing r v).power = s.power ∧ (s.setRing r v).stakes = s.stakes ∧ (s.setRing r v).ties = s.ties ∧
    (s.setRing r v).tseq = s.tseq ∧ (s.setRing r v).tieFlags = s.tieFlags ∧ (s.setRing r v).dla = s.dla ∧
    (s.setRing r v).dlb = s.dlb ∧ (s.setRing r v).brixP = s.brixP ∧ (s.setRing r v).brixQ = s.brixQ ∧
    (s.setRing r v).fseq = s.fseq ∧ (s.setRing r v).txLanes = s.txLanes ∧ (s.setRing r v).spool = s.spool ∧
    (s.setRing r v).brix = s.brix ∧ (s.setRing r v).chans = s.chans ∧ (s.setRing r v).slices = s.slices ∧
    (s.setRing r v).stations = s.stations ∧ (s.setRing r v).sources = s.sources ∧
    (s.setRing r v).dcTest = s.dcTest ∧ (s.setRing r v).pipe = s.pipe ∧ (s.setRing r v).trig = s.trig ∧
    (s.setRing r v).hist = s.hist ∧ (s.setRing r v).survey = s.survey ∧ (s.setRing r v).mem = s.mem ∧
    (s.setRing r v).fw = s.fw ∧ (s.setRing r v).railMv = s.railMv ∧ (s.setRing r v).railMin = s.railMin ∧
    (s.setRing r v).scan = s.scan ∧ (s.setRing r v).tx = s.tx ∧ (s.setRing r v).fresh = s.fresh ∧
    (s.setRing r v).pending = s.pending := by
  and_intros <;> rfl

/-- What `setBank` leaves alone. -/
@[simp] theorem State.setBank_frame (b : Nat) (v : Bank) :
    (s.setBank b v).regs = s.regs ∧ (s.setBank b v).effRegs = s.effRegs ∧ (s.setBank b v).spi = s.spi ∧
    (s.setBank b v).downlink = s.downlink ∧ (s.setBank b v).stakePath = s.stakePath ∧
    (s.setBank b v).time = s.time ∧ (s.setBank b v).servo = s.servo ∧ (s.setBank b v).ref = s.ref ∧
    (s.setBank b v).power = s.power ∧ (s.setBank b v).stakes = s.stakes ∧ (s.setBank b v).ties = s.ties ∧
    (s.setBank b v).tseq = s.tseq ∧ (s.setBank b v).tieFlags = s.tieFlags ∧ (s.setBank b v).dla = s.dla ∧
    (s.setBank b v).dlb = s.dlb ∧ (s.setBank b v).brixP = s.brixP ∧ (s.setBank b v).brixQ = s.brixQ ∧
    (s.setBank b v).fseq = s.fseq ∧ (s.setBank b v).txLanes = s.txLanes ∧ (s.setBank b v).spool = s.spool ∧
    (s.setBank b v).ctl = s.ctl ∧ (s.setBank b v).brix = s.brix ∧ (s.setBank b v).chans = s.chans ∧
    (s.setBank b v).slices = s.slices ∧ (s.setBank b v).stations = s.stations ∧
    (s.setBank b v).sources = s.sources ∧ (s.setBank b v).dcTest = s.dcTest ∧ (s.setBank b v).pipe = s.pipe ∧
    (s.setBank b v).trig = s.trig ∧ (s.setBank b v).hist = s.hist ∧ (s.setBank b v).survey = s.survey ∧
    (s.setBank b v).fw = s.fw ∧ (s.setBank b v).railMv = s.railMv ∧ (s.setBank b v).railMin = s.railMin ∧
    (s.setBank b v).scan = s.scan ∧ (s.setBank b v).tx = s.tx ∧ (s.setBank b v).fresh = s.fresh ∧
    (s.setBank b v).pending = s.pending := by
  and_intros <;> rfl

/-- What `setEngine` leaves alone. -/
@[simp] theorem State.setEngine_frame (k : Nat) (v : Engine) :
    (s.setEngine k v).regs = s.regs ∧ (s.setEngine k v).effRegs = s.effRegs ∧ (s.setEngine k v).spi = s.spi ∧
    (s.setEngine k v).downlink = s.downlink ∧ (s.setEngine k v).stakePath = s.stakePath ∧
    (s.setEngine k v).time = s.time ∧ (s.setEngine k v).servo = s.servo ∧ (s.setEngine k v).ref = s.ref ∧
    (s.setEngine k v).power = s.power ∧ (s.setEngine k v).stakes = s.stakes ∧ (s.setEngine k v).ties = s.ties ∧
    (s.setEngine k v).tseq = s.tseq ∧ (s.setEngine k v).tieFlags = s.tieFlags ∧ (s.setEngine k v).dla = s.dla ∧
    (s.setEngine k v).dlb = s.dlb ∧ (s.setEngine k v).brixP = s.brixP ∧ (s.setEngine k v).brixQ = s.brixQ ∧
    (s.setEngine k v).fseq = s.fseq ∧ (s.setEngine k v).txLanes = s.txLanes ∧ (s.setEngine k v).spool = s.spool ∧
    (s.setEngine k v).ctl = s.ctl ∧ (s.setEngine k v).brix = s.brix ∧ (s.setEngine k v).chans = s.chans ∧
    (s.setEngine k v).slices = s.slices ∧ (s.setEngine k v).stations = s.stations ∧
    (s.setEngine k v).sources = s.sources ∧ (s.setEngine k v).dcTest = s.dcTest ∧ (s.setEngine k v).pipe = s.pipe ∧
    (s.setEngine k v).trig = s.trig ∧ (s.setEngine k v).hist = s.hist ∧ (s.setEngine k v).survey = s.survey ∧
    (s.setEngine k v).mem = s.mem ∧ (s.setEngine k v).railMv = s.railMv ∧ (s.setEngine k v).railMin = s.railMin ∧
    (s.setEngine k v).scan = s.scan ∧ (s.setEngine k v).tx = s.tx ∧ (s.setEngine k v).fresh = s.fresh ∧
    (s.setEngine k v).pending = s.pending := by
  and_intros <;> rfl

/-- What `setSlot` leaves alone. -/
@[simp] theorem State.setSlot_frame (i : Nat) (v : Slot) :
    (s.setSlot i v).regs = s.regs ∧ (s.setSlot i v).effRegs = s.effRegs ∧ (s.setSlot i v).spi = s.spi ∧
    (s.setSlot i v).downlink = s.downlink ∧ (s.setSlot i v).stakePath = s.stakePath ∧
    (s.setSlot i v).time = s.time ∧ (s.setSlot i v).servo = s.servo ∧ (s.setSlot i v).ref = s.ref ∧
    (s.setSlot i v).power = s.power ∧ (s.setSlot i v).stakes = s.stakes ∧ (s.setSlot i v).ties = s.ties ∧
    (s.setSlot i v).tseq = s.tseq ∧ (s.setSlot i v).tieFlags = s.tieFlags ∧ (s.setSlot i v).dla = s.dla ∧
    (s.setSlot i v).dlb = s.dlb ∧ (s.setSlot i v).brixP = s.brixP ∧ (s.setSlot i v).brixQ = s.brixQ ∧
    (s.setSlot i v).fseq = s.fseq ∧ (s.setSlot i v).txLanes = s.txLanes ∧ (s.setSlot i v).spool = s.spool ∧
    (s.setSlot i v).ctl = s.ctl ∧ (s.setSlot i v).brix = s.brix ∧ (s.setSlot i v).chans = s.chans ∧
    (s.setSlot i v).slices = s.slices ∧ (s.setSlot i v).stations = s.stations ∧
    (s.setSlot i v).sources = s.sources ∧ (s.setSlot i v).dcTest = s.dcTest ∧ (s.setSlot i v).pipe = s.pipe ∧
    (s.setSlot i v).trig = s.trig ∧ (s.setSlot i v).hist = s.hist ∧ (s.setSlot i v).survey = s.survey ∧
    (s.setSlot i v).mem = s.mem ∧ (s.setSlot i v).railMv = s.railMv ∧ (s.setSlot i v).railMin = s.railMin ∧
    (s.setSlot i v).scan = s.scan ∧ (s.setSlot i v).tx = s.tx ∧ (s.setSlot i v).fresh = s.fresh ∧
    (s.setSlot i v).pending = s.pending := by
  and_intros <;> rfl

/-- What `setSrvRes` leaves alone. -/
@[simp] theorem State.setSrvRes_frame (k : Nat) (v : SrvRes) :
    (s.setSrvRes k v).regs = s.regs ∧ (s.setSrvRes k v).effRegs = s.effRegs ∧ (s.setSrvRes k v).spi = s.spi ∧
    (s.setSrvRes k v).downlink = s.downlink ∧ (s.setSrvRes k v).stakePath = s.stakePath ∧
    (s.setSrvRes k v).time = s.time ∧ (s.setSrvRes k v).servo = s.servo ∧ (s.setSrvRes k v).ref = s.ref ∧
    (s.setSrvRes k v).power = s.power ∧ (s.setSrvRes k v).stakes = s.stakes ∧ (s.setSrvRes k v).ties = s.ties ∧
    (s.setSrvRes k v).tseq = s.tseq ∧ (s.setSrvRes k v).tieFlags = s.tieFlags ∧ (s.setSrvRes k v).dla = s.dla ∧
    (s.setSrvRes k v).dlb = s.dlb ∧ (s.setSrvRes k v).brixP = s.brixP ∧ (s.setSrvRes k v).brixQ = s.brixQ ∧
    (s.setSrvRes k v).fseq = s.fseq ∧ (s.setSrvRes k v).txLanes = s.txLanes ∧ (s.setSrvRes k v).spool = s.spool ∧
    (s.setSrvRes k v).ctl = s.ctl ∧ (s.setSrvRes k v).brix = s.brix ∧ (s.setSrvRes k v).chans = s.chans ∧
    (s.setSrvRes k v).slices = s.slices ∧ (s.setSrvRes k v).stations = s.stations ∧
    (s.setSrvRes k v).sources = s.sources ∧ (s.setSrvRes k v).dcTest = s.dcTest ∧ (s.setSrvRes k v).pipe = s.pipe ∧
    (s.setSrvRes k v).trig = s.trig ∧ (s.setSrvRes k v).hist = s.hist ∧ (s.setSrvRes k v).mem = s.mem ∧
    (s.setSrvRes k v).fw = s.fw ∧ (s.setSrvRes k v).railMv = s.railMv ∧ (s.setSrvRes k v).railMin = s.railMin ∧
    (s.setSrvRes k v).scan = s.scan ∧ (s.setSrvRes k v).tx = s.tx ∧ (s.setSrvRes k v).fresh = s.fresh ∧
    (s.setSrvRes k v).pending = s.pending := by
  and_intros <;> rfl

/-- What `emit` leaves alone. -/
@[simp] theorem State.emit_frame (x : Tx) :
    (s.emit x).regs = s.regs ∧ (s.emit x).effRegs = s.effRegs ∧ (s.emit x).spi = s.spi ∧
    (s.emit x).downlink = s.downlink ∧ (s.emit x).stakePath = s.stakePath ∧ (s.emit x).time = s.time ∧
    (s.emit x).servo = s.servo ∧ (s.emit x).ref = s.ref ∧ (s.emit x).power = s.power ∧
    (s.emit x).stakes = s.stakes ∧ (s.emit x).ties = s.ties ∧ (s.emit x).tseq = s.tseq ∧
    (s.emit x).tieFlags = s.tieFlags ∧ (s.emit x).dla = s.dla ∧ (s.emit x).dlb = s.dlb ∧
    (s.emit x).brixP = s.brixP ∧ (s.emit x).brixQ = s.brixQ ∧ (s.emit x).fseq = s.fseq ∧
    (s.emit x).txLanes = s.txLanes ∧ (s.emit x).spool = s.spool ∧ (s.emit x).ctl = s.ctl ∧
    (s.emit x).brix = s.brix ∧ (s.emit x).chans = s.chans ∧ (s.emit x).slices = s.slices ∧
    (s.emit x).stations = s.stations ∧ (s.emit x).sources = s.sources ∧ (s.emit x).dcTest = s.dcTest ∧
    (s.emit x).pipe = s.pipe ∧ (s.emit x).trig = s.trig ∧ (s.emit x).hist = s.hist ∧ (s.emit x).survey = s.survey ∧
    (s.emit x).mem = s.mem ∧ (s.emit x).fw = s.fw ∧ (s.emit x).railMv = s.railMv ∧ (s.emit x).railMin = s.railMin ∧
    (s.emit x).scan = s.scan ∧ (s.emit x).fresh = s.fresh ∧ (s.emit x).pending = s.pending := by
  and_intros <;> rfl

/-- What `setPath` leaves alone. -/
@[simp] theorem State.setPath_frame (p : Path) (v : PathState) :
    (s.setPath p v).regs = s.regs ∧ (s.setPath p v).effRegs = s.effRegs ∧ (s.setPath p v).time = s.time ∧
    (s.setPath p v).servo = s.servo ∧ (s.setPath p v).ref = s.ref ∧ (s.setPath p v).power = s.power ∧
    (s.setPath p v).stakes = s.stakes ∧ (s.setPath p v).ties = s.ties ∧ (s.setPath p v).tseq = s.tseq ∧
    (s.setPath p v).tieFlags = s.tieFlags ∧ (s.setPath p v).dla = s.dla ∧ (s.setPath p v).dlb = s.dlb ∧
    (s.setPath p v).brixP = s.brixP ∧ (s.setPath p v).brixQ = s.brixQ ∧ (s.setPath p v).fseq = s.fseq ∧
    (s.setPath p v).txLanes = s.txLanes ∧ (s.setPath p v).spool = s.spool ∧ (s.setPath p v).ctl = s.ctl ∧
    (s.setPath p v).brix = s.brix ∧ (s.setPath p v).chans = s.chans ∧ (s.setPath p v).slices = s.slices ∧
    (s.setPath p v).stations = s.stations ∧ (s.setPath p v).sources = s.sources ∧
    (s.setPath p v).dcTest = s.dcTest ∧ (s.setPath p v).pipe = s.pipe ∧ (s.setPath p v).trig = s.trig ∧
    (s.setPath p v).hist = s.hist ∧ (s.setPath p v).survey = s.survey ∧ (s.setPath p v).mem = s.mem ∧
    (s.setPath p v).fw = s.fw ∧ (s.setPath p v).railMv = s.railMv ∧ (s.setPath p v).railMin = s.railMin ∧
    (s.setPath p v).scan = s.scan ∧ (s.setPath p v).tx = s.tx ∧ (s.setPath p v).fresh = s.fresh ∧
    (s.setPath p v).pending = s.pending := by
  cases p <;> and_intros <;> rfl

/-- What `setRx` leaves alone. -/
@[simp] theorem State.setRx_frame (p : RxLane) (v : RxLaneState) :
    (s.setRx p v).regs = s.regs ∧ (s.setRx p v).effRegs = s.effRegs ∧ (s.setRx p v).spi = s.spi ∧
    (s.setRx p v).downlink = s.downlink ∧ (s.setRx p v).stakePath = s.stakePath ∧ (s.setRx p v).time = s.time ∧
    (s.setRx p v).servo = s.servo ∧ (s.setRx p v).ref = s.ref ∧ (s.setRx p v).power = s.power ∧
    (s.setRx p v).stakes = s.stakes ∧ (s.setRx p v).ties = s.ties ∧ (s.setRx p v).tseq = s.tseq ∧
    (s.setRx p v).tieFlags = s.tieFlags ∧ (s.setRx p v).fseq = s.fseq ∧ (s.setRx p v).txLanes = s.txLanes ∧
    (s.setRx p v).spool = s.spool ∧ (s.setRx p v).ctl = s.ctl ∧ (s.setRx p v).brix = s.brix ∧
    (s.setRx p v).chans = s.chans ∧ (s.setRx p v).slices = s.slices ∧ (s.setRx p v).stations = s.stations ∧
    (s.setRx p v).sources = s.sources ∧ (s.setRx p v).dcTest = s.dcTest ∧ (s.setRx p v).pipe = s.pipe ∧
    (s.setRx p v).trig = s.trig ∧ (s.setRx p v).hist = s.hist ∧ (s.setRx p v).survey = s.survey ∧
    (s.setRx p v).mem = s.mem ∧ (s.setRx p v).fw = s.fw ∧ (s.setRx p v).railMv = s.railMv ∧
    (s.setRx p v).railMin = s.railMin ∧ (s.setRx p v).scan = s.scan ∧ (s.setRx p v).tx = s.tx ∧
    (s.setRx p v).fresh = s.fresh ∧ (s.setRx p v).pending = s.pending := by
  cases p <;> and_intros <;> rfl

/-- What taking a free value leaves alone. -/
@[simp] theorem State.free_frame :
    s.free.2.regs = s.regs ∧ s.free.2.effRegs = s.effRegs ∧ s.free.2.spi = s.spi ∧ s.free.2.downlink = s.downlink ∧
    s.free.2.stakePath = s.stakePath ∧ s.free.2.time = s.time ∧ s.free.2.servo = s.servo ∧ s.free.2.ref = s.ref ∧
    s.free.2.power = s.power ∧ s.free.2.stakes = s.stakes ∧ s.free.2.ties = s.ties ∧ s.free.2.tseq = s.tseq ∧
    s.free.2.tieFlags = s.tieFlags ∧ s.free.2.dla = s.dla ∧ s.free.2.dlb = s.dlb ∧ s.free.2.brixP = s.brixP ∧
    s.free.2.brixQ = s.brixQ ∧ s.free.2.fseq = s.fseq ∧ s.free.2.txLanes = s.txLanes ∧ s.free.2.spool = s.spool ∧
    s.free.2.ctl = s.ctl ∧ s.free.2.brix = s.brix ∧ s.free.2.chans = s.chans ∧ s.free.2.slices = s.slices ∧
    s.free.2.stations = s.stations ∧ s.free.2.sources = s.sources ∧ s.free.2.dcTest = s.dcTest ∧
    s.free.2.pipe = s.pipe ∧ s.free.2.trig = s.trig ∧ s.free.2.hist = s.hist ∧ s.free.2.survey = s.survey ∧
    s.free.2.mem = s.mem ∧ s.free.2.fw = s.fw ∧ s.free.2.railMv = s.railMv ∧ s.free.2.railMin = s.railMin ∧
    s.free.2.scan = s.scan ∧ s.free.2.tx = s.tx ∧ s.free.2.pending = s.pending := by
  and_intros <;> rfl

/-! ### Reading after writing -/

/-- A register reads as it was last set. -/
@[simp] theorem State.reg_setReg_same (a : Nat) (v : Word) : (s.setReg a v).reg a = v := tabGet_tabSet_same _ _ _ _

/-- Setting a register leaves every other one. -/
theorem State.reg_setReg_ne {a b : Nat} (v : Word) (h : b ≠ a) : (s.setReg a v).reg b = s.reg b :=
  tabGet_tabSet_ne _ _ _ _ h

/-- The same for an event. -/
theorem State.reg_event_ne {a b : Nat} (k : Nat) (h : b ≠ a) : (s.event a k).reg b = s.reg b :=
  s.reg_setReg_ne _ h

/-- The same for a field. -/
theorem State.reg_setFld_ne {a b : Nat} (h l n : Nat) (hne : b ≠ a) : (s.setFld a h l n).reg b = s.reg b :=
  s.reg_setReg_ne _ hne

/-- The same for a count. -/
theorem State.reg_countFld_ne {a b : Nat} (h l : Nat) (hne : b ≠ a) : (s.countFld a h l).reg b = s.reg b :=
  s.reg_setReg_ne _ hne

/-- An event sets its bit and keeps the others. -/
@[simp] theorem State.reg_event_same (a k : Nat) : (s.event a k).reg a = s.reg a ||| place 1 k := s.reg_setReg_same _ _

@[simp] theorem State.eff_setEff_same (a : Nat) (v : Word) : (s.setEff a v).eff a = v := tabGet_tabSet_same _ _ _ _
theorem State.eff_setEff_ne {a b : Nat} (v : Word) (h : b ≠ a) : (s.setEff a v).eff b = s.eff b :=
  tabGet_tabSet_ne _ _ _ _ h

@[simp] theorem State.chan_setChan_same (c : Nat) (v : Channel) : (s.setChan c v).chan c = v := tabGet_tabSet_same _ _ _ _
theorem State.chan_setChan_ne {c m : Nat} (v : Channel) (h : m ≠ c) : (s.setChan c v).chan m = s.chan m :=
  tabGet_tabSet_ne _ _ _ _ h

@[simp] theorem State.slice_setSlice_same (j : Nat) (v : Slice) : (s.setSlice j v).slice j = v := tabGet_tabSet_same _ _ _ _
theorem State.slice_setSlice_ne {j m : Nat} (v : Slice) (h : m ≠ j) : (s.setSlice j v).slice m = s.slice m :=
  tabGet_tabSet_ne _ _ _ _ h

@[simp] theorem State.stn_setStn_same (j : Nat) (v : Station) : (s.setStn j v).stn j = v := tabGet_tabSet_same _ _ _ _
theorem State.stn_setStn_ne {j m : Nat} (v : Station) (h : m ≠ j) : (s.setStn j v).stn m = s.stn m :=
  tabGet_tabSet_ne _ _ _ _ h

@[simp] theorem State.src_setSrc_same (j : Nat) (v : InjSource) : (s.setSrc j v).src j = v := tabGet_tabSet_same _ _ _ _
theorem State.src_setSrc_ne {j m : Nat} (v : InjSource) (h : m ≠ j) : (s.setSrc j v).src m = s.src m :=
  tabGet_tabSet_ne _ _ _ _ h

@[simp] theorem State.lane_setLane_same (n : Nat) (v : TxLane) : (s.setLane n v).lane n = v := tabGet_tabSet_same _ _ _ _
theorem State.lane_setLane_ne {n m : Nat} (v : TxLane) (h : m ≠ n) : (s.setLane n v).lane m = s.lane m :=
  tabGet_tabSet_ne _ _ _ _ h

@[simp] theorem State.cls_setCls_same (c : Nat) (v : SpoolClass) : (s.setCls c v).cls c = v := tabGet_tabSet_same _ _ _ _
theorem State.cls_setCls_ne {c m : Nat} (v : SpoolClass) (h : m ≠ c) : (s.setCls c v).cls m = s.cls m :=
  tabGet_tabSet_ne _ _ _ _ h

@[simp] theorem State.ring_setRing_same (r : Nat) (v : Ring) : (s.setRing r v).ring r = v := tabGet_tabSet_same _ _ _ _
theorem State.ring_setRing_ne {r m : Nat} (v : Ring) (h : m ≠ r) : (s.setRing r v).ring m = s.ring m :=
  tabGet_tabSet_ne _ _ _ _ h

@[simp] theorem State.bank_setBank_same (b : Nat) (v : Bank) : (s.setBank b v).bank b = v := tabGet_tabSet_same _ _ _ _
theorem State.bank_setBank_ne {b m : Nat} (v : Bank) (h : m ≠ b) : (s.setBank b v).bank m = s.bank m :=
  tabGet_tabSet_ne _ _ _ _ h

@[simp] theorem State.engine_setEngine_same (k : Nat) (v : Engine) : (s.setEngine k v).engine k = v := tabGet_tabSet_same _ _ _ _
theorem State.engine_setEngine_ne {k m : Nat} (v : Engine) (h : m ≠ k) : (s.setEngine k v).engine m = s.engine m :=
  tabGet_tabSet_ne _ _ _ _ h

@[simp] theorem State.slot_setSlot_same (i : Nat) (v : Slot) : (s.setSlot i v).slot i = v := tabGet_tabSet_same _ _ _ _
theorem State.slot_setSlot_ne {i m : Nat} (v : Slot) (h : m ≠ i) : (s.setSlot i v).slot m = s.slot m :=
  tabGet_tabSet_ne _ _ _ _ h

@[simp] theorem State.srvRes_setSrvRes_same (k : Nat) (v : SrvRes) : (s.setSrvRes k v).srvRes k = v := tabGet_tabSet_same _ _ _ _
theorem State.srvRes_setSrvRes_ne {k m : Nat} (v : SrvRes) (h : m ≠ k) : (s.setSrvRes k v).srvRes m = s.srvRes m :=
  tabGet_tabSet_ne _ _ _ _ h

@[simp] theorem State.path_setPath_same (p : Path) (v : PathState) : (s.setPath p v).path p = v := by cases p <;> rfl
theorem State.path_setPath_ne {p q : Path} (v : PathState) (h : q ≠ p) : (s.setPath p v).path q = s.path q := by
  cases p <;> cases q <;> first | rfl | exact absurd rfl h
@[simp] theorem State.rx_setRx_same (l : RxLane) (v : RxLaneState) : (s.setRx l v).rx l = v := by cases l <;> rfl
theorem State.rx_setRx_ne {l m : RxLane} (v : RxLaneState) (h : m ≠ l) : (s.setRx l v).rx m = s.rx m := by
  cases l <;> cases m <;> first | rfl | exact absurd rfl h

/-- An event of the hub's own that is due has its effect. -/
@[simp] theorem whenDue_true (t : State) : whenDue s true t = .next t := rfl

/-- One that is not due does nothing. -/
@[simp] theorem whenDue_false (t : State) : whenDue s false t = .next s := rfl

/-- The registers stay in canonical form. -/
theorem State.setReg_wf (a : Nat) (v : Word) (h : tabWf regReset s.regs = true) :
    tabWf regReset (s.setReg a v).regs = true := tabSet_wf regReset _ _ _ h

end Sys2Proof.Machine
end

