-- ==== Sys2Proof/WellFormed.lean ====
section
/-!
DEFINITION. Which commands carry operands that the manual admits: indices within what a hub has, and bodies of the length
their table gives. A command that is not well formed is one that no sender can put on the wire or no event can carry;
the machine's meanings are total all the same (notes/assumptions/1.md).
-/

namespace Sys2Proof

/-- Body lengths of messages that arrive on the control stream or in the ring (11 Table 11.2, 17 R474, 12 Table 12.2). -/
def bodyIs (n : Nat) (b : List Byte) : Bool := b.length == n
def bodyIn (lo hi : Nat) (b : List Byte) : Bool := lo ≤ b.length && b.length ≤ hi

/-- A ring pair: 0 to 31 (11 R316). -/
def ringOk (r : Nat) : Bool := r < 32

/-- A trained lane: UL0 to UL31, Brix P and Q (09 Table 9.1). -/
def laneOk (n : Nat) : Bool := n < 34

/-- A data lane: UL2 to UL31 (09 Table 9.1). -/
def dataLaneOk (n : Nat) : Bool := 2 ≤ n && n < 32

/-- A channel (00 R14). -/
def chanOk (c : Nat) : Bool := c < 512

/-- A station (00 R14). -/
def stationOk (j : Nat) : Bool := j < 32

/-- An uplink class (10 R291). -/
def clsOk (c : Nat) : Bool := c < 8

/-- An island of Table 1.1: 0 to 46 (01 R18). -/
def islandOk (i : Nat) : Bool := i < 47

/-- A downlink frame is 12 characters, a Brix frame 10, a training sequence K28.2 and 15 more (09 Table 9.3, Table 9.7;
12 Table 12.1). -/
def dlSyms : Nat := 12
def brixSyms : Nat := 10
def trainSyms : Nat := 16

/-- The well-formed commands. -/
def Instr.wf : Instr → Bool
  | .railLowEvt rail mV => rail < 9 && mV < 65536
  | .memtestEnd repairs failed => (repairs.all fun p => p.1 < 76) && (failed.all (· < 76))
  | .sampleContainer ch k _ _ _ _ _ _ => chanOk ch && k < 4
  | .stretch g => islandOk g.island
  | .stretchRestore i => islandOk i
  | .longSag i _ _ => islandOk i
  | .downlinkFrame _ f => f.syms.length == dlSyms
  | .orbitStart temps cm => (temps.all fun p => stationOk p.1) && cm.all chanOk
  | .offlinePhaseEnd st sums => stationOk st && sums.length == 16
  | .pedestalUpdate ch => chanOk ch
  | .sliceFault st sl => stationOk st && sl < 33
  | .injectionReturn src => src < 4
  | .feChWrite _ ch _ => chanOk ch
  | .timeReport b => bodyIs 32 b
  | .stake r => ringOk r
  | .roleArm b => bodyIs 16 b
  | .decide b => bodyIs 16 b
  | .stnStagedWrite _ o _ => o < 4096 && o % 4 == 0
  | .filterApplication st => stationOk st
  | .filterOutput ch => chanOk ch
  | .detectorWindowEnd st => stationOk st
  | .macroWake b => b < 32
  | .contourTest m => m < 8
  | .contourViolation m => m < 8
  | .indexEntryWrite _ st => stationOk st
  | .recall r => ringOk r
  | .unpin r => ringOk r
  | .taps b => bodyIs 16 b && (b.drop 1).head? == some 1
  | .ready b => bodyIs 16 b && (b.drop 1).head? == some 2
  | .restart b => bodyIs 16 b && (b.drop 1).head? == some 3
  | .laneSwitch n => laneOk n
  | .laneJoin n => laneOk n
  | .trainTimeout n => laneOk n
  | .backoffEnd n => laneOk n
  | .brixTrainingSequence _ l => l.length == trainSyms
  | .laneDown b => bodyIs 16 b
  | .uplinkFault n => laneOk n
  | .dlTap _ eye _ => eye ≤ 100
  | .packetFlush c => clsOk c
  | .packetStart n _ => dataLaneOk n
  | .packetSent n => dataLaneOk n
  | .splAck b => bodyIs 16 b
  | .splNak b => bodyIs 16 b
  | .ackTimeout c _ => clsOk c
  | .splCreditWrite _ c _ => clsOk c
  | .splShareWrite _ c _ => clsOk c
  | .controlMessageDrop raw => raw.length ≤ 270
  | .doorbell b => bodyIs 3 b
  | .readData b => bodyIn 8 264 b
  | .readTimeout t => t < 65536
  | .regAccessRead b => bodyIn 8 72 b && (b.drop 2).head? == some 1
  | .regAccessWrite b => bodyIn 8 72 b && (b.drop 2).head? == some 2
  | .descriptorReserved r => ringOk r
  | .nop r => ringOk r
  | .abort r => ringOk r
  | .tieRead r => ringOk r
  | .ringCfgWrite _ r _ => ringOk r
  | .brixFrame _ f => f.syms.length == brixSyms
  | .ringRoute b => bodyIn 4 264 b
  | .hopReport _ b => bodyIs 24 b
  | .hubStatus _ b => bodyIs 16 b
  | .ringMap _ b => bodyIs 16 b
  | .mirror b => bodyIn 8 264 b
  | .closure b => bodyIs 16 b
  | .ringTable r => ringOk r
  | .ringAdmit r => ringOk r
  | .ringRelease r => ringOk r
  | .resultStale k _ => k < 64
  | .srvRead r => ringOk r
  | .srvDump r => ringOk r
  | .memWinPlain _ w _ => w < 256
  | .memWinSet _ w _ => w < 256
  | .memWinClr _ w _ => w < 256
  | .patrolRead b a _ _ => b < 76 && a < 65536
  | .memMarch r => ringOk r
  | .memLogRead r => ringOk r
  | .memRepair r => ringOk r
  | .lockstepMismatch (.cores k) => k < 8
  | .lockstepMismatch (.voter i) => islandOk i
  | .engineResume e _ _ => e.engine < 8
  | .fwOpen r => ringOk r
  | .fwChunk r => ringOk r
  | .fwClose c => ringOk c.ring
  | .fwDrop r => ringOk r
  | .sessionAbandon i => 1 ≤ i && i ≤ 2
  | .fwCommit r => ringOk r
  | .certRead r => ringOk r
  | .attest r => ringOk r
  | .spiRead cmd _ _ => cmd != 0x02
  | .spiWrite cmd _ _ tail => cmd != 0x03 && tail < 32
  | .registerWrite _ a _ => a < 0x100000 && a % 4 == 0
  | .powerReset _ | .railsEnd | .pinReset _ | .softReset _ _ | .fuseEnd | .settingsEnd _ _ | .imageEnd _ _ | .stackEnd _ _ _ _ _
  | .linksEnd | .pllLock | .pllUnlock | .samplingStart | .syncX | .resync | .orbitAct | .calpulse | .accept
  | .gapStart | .calRunRequest _ _ | .save _ _ | .tempSetsSave | .dcTestStart | .dcTestCurrentOff
  | .exchangeFrame _ | .holdPhase | .receiveLaneDown _ | .downlinkAligned _ | .downlinkUp _
  | .refFreqCheck _ _ _ _ | .launchBufferRead _ | .launchFrame _ | .regWrite | .inject | .loadMeridian | .loadStaff
  | .traverseStart | .fwActivate | .roleSwapDecide | .roleSwap | .capture _ _ | .timeOrbitNextWrite _ _ | .apply _ _
  | .groupFormed | .primitiveFrame _ | .acceptServiceStart _ _ _ _ | .fragmentComplete _ | .trgWinWrite _ _
  | .trvStart _ _ | .trvStop _ _ | .traverseStep | .traverseTimeout | .selfAccept | .loadAmp | .addAmp | .count
  | .alert | .stop | .blockWrite _ | .recallUnit _ _ | .futureTimeout _ | .pinCopy _ _ | .scrubRead _ _ _
  | .scrubPassEnd | .ulEnWrite _ _ | .descriptorFetch | .completionRelease | .bypassOpen | .leave _ _ | .closureSend
  | .closureMissing | .roleTakeover | .split | .srvStart _ _ | .srvStop _ _ | .selfcal _ _ | .surveyPassPeriod
  | .surveyConversionEnd _ | .surveyOutput _ | .excitationFault | .selfcalStart | .selfcalEnd | .patrolPassEnd
  | .marchLine _ | .doseRead _ _ | .ceClr _ _ | .confClr _ _ | .fwCopyDone _ | .fwFallback | .topLockWrite _ _
  | .topUnlock _ _ | .signalDetect _ | .surveySettlingEnd _ _ | .boundaryScanInstruction _ _ _ => true

end Sys2Proof
end

