-- ==== Sys2Proof/Tests/Slice0.lean ====
section
/-!
SUPPORT. The model's own tests: a witness for the hypotheses of every statement, the checks of WellFormed, and small
runs of one step.
-/

namespace Sys2Proof.Machine

set_option Elab.async false

open Sys2Proof

/-- A hub in RUN that samples, with every engine up and orbit 1, crossing 100. -/
def hub : State :=
  { State.reset with
    power := { PowerState.init with phase := .run, pllLocked := true }
    time := { TimeState.init with now := 10000, sampling := true, xcount := 5000, orbit := 1, cross := 100 }
    fw := { FwState.init with
      slots := []
      engines := (upto 0 8).map fun k => (k, { Engine.init with running := true }) } }

/-- A read of the configuration store in which a page was corrected, and one with a page beyond correction. -/
def goodRead : StoreRead := ⟨[3], none⟩
def badRead : StoreRead := ⟨[], some 131071⟩

/-- A settings copy that can be used, and one that cannot. -/
def goodCopy : CopyRead := ⟨goodRead, true⟩
def badCopy : CopyRead := ⟨badRead, true⟩

/-- A hub in a phase of start-up. -/
def starting (p : Phase) : State := { hub with power := { PowerState.init with phase := p } }

/-- A hub that waits for nothing: it runs from REFCLK, and no downlink is UP. -/
def freeHub : State := (starting .links).setReg Reg.timeCtl 3

/-- A descriptor: its opcode and the first bytes of its body. -/
def descOf (op : Nat) (body : List Byte) : Fetched :=
  ⟨0, (leBytes 1 op ++ List.replicate 15 0 ++ body ++ List.replicate 48 0).take 64, 0⟩

/-- A descriptor that waits at the head of ring 0. -/
def queued (f : Fetched) (s : State) : State := s.setRing 0 { Ring.init with st := 1, fetched := [f] }

/-- A stake with an action, aimed at the present crossing of `hub`. -/
def stakeAt (a : Nat) (args : List Byte) : Stake :=
  { sid := 7, ring := 0, sq := 0, tag := 0, orbit := 1, x := 100, n := 2800, runLate := false, action := a
    args := args, lateAt := none, frame := none, held := false, resumed := false }

/-- The hub with one pending stake. -/
def staked (k : Stake) : State := { hub with stakes := [k] }

/-- The hub in a crossing in which fast commands act. -/
def fastCmd (fc : Byte) : State := { hub with time := { hub.time with fcQueue := [⟨10000, fc⟩] } }

/-- The hub in the first crossing of an orbit, and of an orbit gap. -/
def atOrbit : State := { hub with time := { hub.time with cross := 0 } }
def atGap : State := { hub with time := { hub.time with cross := 2688 } }

/-- The hub at an orbit gap in which a move and an adoption are due. -/
def moved : State :=
  { atGap with servo := { ServoState.init with moves := [⟨9000, 2 ^ 63, 3, false, true⟩], adopt := some (9000, 5) } }

/-- A transmit lane in a state. -/
def laneIn (n : Nat) (st : TState) (s : State) : State := s.setLane n { TxLane.init with st := st }

/-- A hub that has sent an exchange frame. -/
def exchanged : State :=
  { hub with servo := { ServoState.init with sent := [⟨3, 0, 0, 1, false, 0, 9000⟩] } }

/-- A frame buffer in the user area: lane 2, 1 character. -/
def framed (s : State) : State := { s with mem := { s.mem with user := [(0, 2), (2, 1)] } }

/-- The state that a step answers. -/
def after (s : State) : State := match step s with
  | .next t => t
  | _ => s

/-- A Backsight step in progress in station 31 that ends at crossing 5000. -/
def visiting : CalJob :=
  { step := .visit 31, phase := .offline, ends := 5000, left := 0, handedX := 4000, v := 0, entryRetried := false, exitRetried := false
    par := ⟨0, 0, 0⟩, shadow := ⟨0, 0, 0, 0, 0, 0, 0, 0, 0, 0⟩, offlineDone := false, gainBefore := 0, loaded := (0, 0, 0), repeat_ := none
    discard := false }

/-- An accept whose window is in PIPE. -/
def acceptOf : Accept :=
  { seq := 3, a := 4900, orbit := 1, cross := 0, self := false, pre := 5, post := 6, mode := 0, cmp := false, chsel := 0
    started := none, hist := false, frag := none }

/-- A fragment with an empty list. -/
def emptyFrag : Fragment := ⟨[], [], [], 0, 0, 0, 0⟩

/-- The sequencer runs in state 0 with these first two words of its entry. -/
def traversing (w0 w1 : Word) : State :=
  (({ hub with trig := { hub.trig with trv := ⟨true, 0, 9999, [0, 0, 0, 0], false⟩ } }).setReg (Reg.trgTrvState 0) w0).setReg
    (Reg.trgTrvState 1) w1

/-- Mask 7 is enabled and aligned with a CALPULSE that acts now. -/
def masked (t : Option MaskTest) : State :=
  ((({ hub with trig := { hub.trig with calpulses := [4998] } }).setReg Reg.trgCtrCtl 0x80).setReg
    (regKey (Reg.trgCtrW 0) 7) 0x04010000).setMask 7 ⟨t, 0, 0⟩

/-- A RECALL of crossing 6000, 16 crossings, of channel 0, with a chain of one buffer. -/
def recallDescOf (count : Byte) : Fetched :=
  descOf 0x20 [0x70, 0x17, 0, 0, 0, 0, 0, 0, count, 0, 0, 0, 4, 1, 1, 0, 1, 0, 0, 0, 0, 0, 0, 0, 8]

/-- The same, resumed past its last channel. -/
def resumeDesc : Fetched :=
  descOf 0x20 ([0x70, 0x17, 0, 0, 0, 0, 0, 0, 16, 0, 0, 0, 0x44, 1, 1, 0, 1, 0, 0, 0, 0, 0, 0, 0, 8] ++
    List.replicate 15 0 ++ [0x70, 0x17, 0, 0, 0, 0, 0, 1])

/-- What its reads brought. -/
def recallPrep : Prep := ⟨0, 0, some [0, 0, 0, 0, 0, 0, 0, 0, 0, 0, 1, 0, 0, 0, 0, 0], none, false⟩

/-- A recall in service. -/
def recallOf : Recall :=
  { rid := 3, ring := 0, sq := 0, tag := 0, startX := 6000, count := 16, form := 0, noOut := false, chans := [0]
    waitEnd := 10000, bufs := [(0, 65536)], pin := none, period := 23, stn := 0, pos := 0, x := 6000, outDone := false
    buf := 0, used := 0, part := [], partAt := 0, sect := none, absent := false, error := false, loss := false
    fromPin := false, anyGood := false, anyError := false, aborted := false, resumed := false, lost := false
    ringOnly := false, lastSeq := none }

/-- A hub with a history. -/
def withHist (h : HistState → HistState) : State := { hub with hist := h hub.hist }

/-- A closed packet of class `c` with sequence number 0; sent when `at_` says when. -/
def packetOf (n : Nat) (at_ : Option Nat) : Packet :=
  { seq := 0, payload := List.replicate n 0, bmark := false, start := true, write := false, restart := false, sends := 0
    tmoResends := 0, onTmo := false, forLoss := false, lane := 2, sentAt := at_, inMacro := 0 }

/-- The hub with data lane 31 UP and class 0 able to send. -/
def sending (k : SpoolClass) : State := ((laneIn 31 .up hub).setReg Reg.splCtl 3).setCls 0 k

/-- A class with credit. -/
def credited : SpoolClass := { SpoolClass.init with limit := 100 }

/-- Downlink A is UP. -/
def dlUp (s : State) : State := { s with dla := { RxLaneState.init with stat := .up, masterX := some 200 } }

/-- The symbols of a downlink frame of idle control characters. -/
def frameOf (comma : LChar) (fc c2 : Byte) : List (BitVec 10) :=
  encodeChars false ([comma, .d fc, .d c2] ++ List.replicate 9 (.d 0))

/-- A DL_TAP request of downlink A is due. -/
def tapping : State := ((laneIn 2 .up (dlUp hub)).setReg Reg.lnkCtl 0x17).setReg Reg.lnkDlEye 50

/-- A read of host memory that fetches descriptor 0 of ring 31. -/
def fetchOf : HostRead := ⟨7, 0, 64, .fetch 31 0 1 0, [], 0, 0⟩

/-- Ring 31 is active with this read outstanding. -/
def fetching (q : HostRead) : State :=
  let s := hub.setRing 31 { Ring.init with st := 1 }
  { s with ctl := { s.ctl with reads := [q] } }

/-- An ABORT of ring 2 waits for the first descriptor of an active ring. -/
def aborting (s : State) (r : Nat) : State :=
  let t := (s.setRing r { Ring.init with st := 1 }).setRing 2 { Ring.init with st := 1, accepted := [(9, false)] }
  { t with ctl := { t.ctl with aborts := [⟨2, 9, 5, r, 0⟩] } }

/-- A completion of ring 0. -/
def completionOf : Completion :=
  { ring := 0, sq := 0, status := 0, tag := 0, commitX := 0, quality := 0, resumed := false, result := [], needs := []
    after := none, extra := false }

/-- The row of a register address. -/
def rowOf (a : Nat) : RegRow := (regRow a).getD ⟨0, 0, 0, .none, .plain, 0, 0, 0, 0, 0⟩

/-- A hub of a ring of eight at a position, in the ring when `inRing`. -/
def ringHub (pos : Nat) (role : Role) (inRing : Bool) : State :=
  ({ hub with brix := { BrixState.init with role := role, bypassOpen := inRing } }).setReg Reg.brxCfg
    (BitVec.ofNat 32 (0x8800 + pos))

/-- A ring hub with other fields of its Brix state. -/
def ringWith (s : State) (b : BrixState → BrixState) : State := { s with brix := b s.brix }

/-- The symbols of a ring frame of idle slots. -/
def ringFrame : List (BitVec 10) := encodeChars false (k28_5 :: .d 0 :: .d 0 :: List.replicate 7 (.d 0))

/-- The survey port, enabled in mode 1, with point 0 enabled. -/
def surveying (v : SurveyState → SurveyState) : State :=
  (({ hub with survey := v SurveyState.init }).setReg Reg.srvCtl 3).setReg (Reg.srvPtA 0) 0x80

/-- An image header that passes every check but the signature: 256 bytes. -/
def imageHeader : List Byte := List.replicate 16 0 ++ [0, 1] ++ List.replicate 238 0

/-- The hub with an open update session in slot 2. -/
def updating : State := hub.setSlot 2 { Slot.init with st := .open_, header := imageHeader }

/-- A neighbour's training sequence at TSTATE 1 without tap moves: characters 1 to 15, and its symbols. -/
def trainBytes : List Byte :=
  [0, 16] ++ List.replicate 11 0 ++ leBytes 2 (crc16 ([0, 16] ++ List.replicate 11 0)).toNat
def trainSyms : List (BitVec 10) := encodeChars false (k28_2 :: dataChars trainBytes)

/-- A hub of the ring that has heard a K28.1 on both ports. -/
def heard : State :=
  { ringHub 7 .none true with
    brixP := { RxLaneState.init with k281 := some (9000, 0) }, brixQ := { RxLaneState.init with k281 := some (9000, 0) } }

/-! ### The certificates and the attestation record fit the class-7 share -/

/-- A CERT_READ with the shortest buffer that always takes both certificates. -/
def certDesc : Fetched := descOf 0x48 [0, 0, 0, 0, 0, 0, 0, 0, 8, 0, 0, 0, 0, 0, 0, 0, 0x10, 8]

/-- An ATTEST with the shortest buffer. -/
def attestDesc : Fetched :=
  descOf 0x49 [0, 0, 0, 0, 0, 0, 0, 0, 0, 0, 0, 0, 0, 0, 0, 0, 8, 0, 0, 0, 0, 0, 0, 0, 0, 1]

theorem certBytes_length (c : List Byte) : (certBytes c).length ≤ 1032 := by
  have h : (leBytes 4 (c.take 1024).length).length = 4 := rfl
  have h2 : (c.take 1024).length ≤ 1024 := List.length_take_le _ _
  simp only [certBytes, padTo, List.length_append, List.length_replicate, h, ceilDiv]
  omega

theorem shaBlocks_length (n : Nat) : ∀ (h : List Word) (l : List Byte), (shaBlocks n h l).length ≤ h.length := by
  induction n with
  | zero => exact fun h l => Nat.le_refl _
  | succ n ih =>
    intro h l
    refine Nat.le_trans (ih _ _) ?_
    simp only [shaBlock, List.length_map, List.length_zip]
    omega

theorem sha256_length (l : List Byte) : (sha256 l).length ≤ 32 := by
  have h := shaBlocks_length ((l.length + 72) / 64) shaH0
    (l ++ 0x80#8 :: List.replicate (64 * ((l.length + 72) / 64) - l.length - 9) 0 ++ (leBytes 8 (8 * l.length)).reverse)
  have h8 : shaH0.length = 8 := rfl
  rw [sha256, List.length_flatMap]
  have : ∀ w : Word, (beBytes w).length = 4 := fun _ => rfl
  simp only [this, List.map_const', List.sum_replicate_nat]
  omega

theorem placeWrite_short (s : State) (c addr fuel : Nat) (data : List Byte) (hl : data.length ≤ 4080)
    (ho : (s.cls c).open_ = none) : s.placeWrite c addr data (fuel + 2) = s ∨
      ∃ b : List Byte, b.length ≤ data.length + 16 ∧
        s.placeWrite c addr data (fuel + 2) = s.appendOpen c b true true := by
  rw [State.placeWrite]
  by_cases h : data.isEmpty
  · exact .inl (by simp [h])
  · right
    have hr : s.openRoom c = 4096 := by simp [State.openRoom, ho]
    have hn : min data.length (min 4080 ((4096 - 16) / 8 * 8)) = data.length := by omega
    refine ⟨itemHeader 1 0 0 data.length addr ++ data, ?_, ?_⟩
    · have : (itemHeader 1 0 0 data.length addr).length = 16 := rfl
      simp only [List.length_append, this]; omega
    · simp only [h, hr, hn, List.take_length, List.drop_length]
      simp [State.placeWrite]

theorem acceptRun_ok (s : State) (r : Nat) (f : Fetched) (run : Fetched → State → State)
    (h1 : memNat (s.ring r).marked f.sq = false) (h2 : f.headerOk = true) :
    s.acceptRun r f run = run f (s.takeHead r f) := by
  simp [State.acceptRun, h1, h2]

/-- A write of at most 2064 bytes fits an empty class with a share of 4096 bytes or more. -/
theorem write_fits (S : State) (addr : Nat) (D : List Byte) (g : State → State) (hd : D.length ≤ 2064)
    (ho : (S.cls 7).open_ = none) (hq : (S.cls 7).occ = 0) (hs : 4096 ≤ S.shareBytes 7)
    (hg : ∀ T, (g T).cls 7 = T.cls 7 ∧ (g T).shareBytes 7 = T.shareBytes 7) :
    ((g (S.hostWrite 7 addr D)).cls 7).occOpen + 0 ≤ (g (S.hostWrite 7 addr D)).shareBytes 7 := by
  rw [(hg _).1, (hg _).2, State.hostWrite]
  rcases placeWrite_short S 7 addr (2 * D.length) D (by omega) ho with hw | ⟨b, hl, hw⟩ <;> rw [hw]
  · simp only [SpoolClass.occOpen, ho, hq]; omega
  · have happ : S.appendOpen 7 b true true =
        S.setCls 7 { S.cls 7 with open_ := some ⟨b, S.time.now, true, true⟩ } := by simp only [State.appendOpen, ho]
    have hr : (S.setCls 7 { S.cls 7 with open_ := some ⟨b, S.time.now, true, true⟩ }).shareBytes 7 = S.shareBytes 7 := rfl
    have : SpoolClass.occ { S.cls 7 with open_ := some ⟨b, S.time.now, true, true⟩ } = 0 := hq
    rw [happ, State.cls_setCls_same, hr, SpoolClass.occOpen, this]
    simp only [pktBytes, ceilDiv]; omega

theorem certRead_ok (s : State) (r : Nat) (f : Fetched) (h0 : ¬ (f.body 16 4 < 2064 ∨ !f.zero 0 8 ∨ !f.zero 20 28))
    (ha : ¬ f.body 8 8 % 8 ≠ 0) : ∃ D : List Byte, D.length ≤ 2064 ∧ s.certRead r f =
      (s.hostWrite 7 (f.body 8 8) D).commit r f.sq Status.ok f.tag false []
        [(7, (s.hostWrite 7 (f.body 8 8) D).openSeq 7)] none := by
  have h1 := certBytes_length Config.deviceCert
  have h2 := certBytes_length Config.authorityCert
  have hd : (certBytes Config.deviceCert ++ certBytes Config.authorityCert).length ≤ 2064 := by
    rw [List.length_append]; omega
  refine ⟨_, hd, ?_⟩
  rw [State.certRead, if_neg, if_neg ha]
  rintro (h | h)
  · exact h0 (.inl (by omega))
  · exact h0 (.inr h)

theorem certRead_fits : ((queued certDesc hub).tryShare 7 0 fun t =>
    t.acceptRun 0 certDesc fun f t => t.certRead 0 f).isSome = true := by
  have e := acceptRun_ok (queued certDesc hub) 0 certDesc (fun f t => t.certRead 0 f) (by decide +kernel)
    (by decide +kernel)
  obtain ⟨D, hd, ea⟩ := certRead_ok ((queued certDesc hub).takeHead 0 certDesc) 0 certDesc (by decide +kernel)
    (by decide +kernel)
  have ho : (((queued certDesc hub).takeHead 0 certDesc).cls 7).open_ = none := by decide +kernel
  have hr : 4096 ≤ ((queued certDesc hub).takeHead 0 certDesc).shareBytes 7 := by decide +kernel
  have hq : (((queued certDesc hub).takeHead 0 certDesc).cls 7).occ = 0 := by decide +kernel
  have h := write_fits _ (certDesc.body 8 8) D
    (fun T => T.commit 0 certDesc.sq Status.ok certDesc.tag false [] [(7, T.openSeq 7)] none) hd ho hq hr
    fun T => ⟨rfl, rfl⟩
  rw [← ea] at h
  have hw : (queued certDesc hub).classWaits 7 = false := by decide +kernel
  rw [State.tryShare, e, if_pos (by rw [hw, decide_eq_true h]; rfl)]
  exact Option.isSome_some

theorem attest_ok (s : State) (r : Nat) (f : Fetched) (h0 : ¬ (f.body 24 4 < 256 ∨ !f.zero 28 20))
    (ha : ¬ f.body 16 8 % 8 ≠ 0) : ∃ D : List Byte, D.length ≤ 2064 ∧ s.attest r f =
      (s.hostWrite 7 (f.body 16 8) D).commit r f.sq Status.ok f.tag false []
        [(7, (s.hostWrite 7 (f.body 16 8) D).openSeq 7)] none := by
  rw [State.attest, if_neg h0, if_neg ha]
  refine ⟨_, ?_, rfl⟩
  have hk : ∀ n v, (leBytes n v).length = n := by
    intro n
    induction n with
    | zero => exact fun _ => rfl
    | succ n ih => exact fun v => by rw [leBytes, List.length_cons, ih]
  have hp : ∀ s : State, s.partBytes.length = 12 := fun _ => rfl
  have hm : ∀ g : Nat → Byte, ((upto 0 16).map g).length = 16 := fun _ => rfl
  have h0 := sha256_length (Config.settingsImage s.fw.settings)
  have h1 := sha256_length s.configWords
  have h2 := List.length_take_le 32 (s.fw.runDigest ++ leBytes 32 0)
  delta State.attestRecord State.attestBody
  simp only [List.length_append, hk, hp, hm]
  omega

theorem attest_fits : ((queued attestDesc hub).tryShare 7 0 fun t =>
    t.acceptRun 0 attestDesc fun f t => t.attest 0 f).isSome = true := by
  have e := acceptRun_ok (queued attestDesc hub) 0 attestDesc (fun f t => t.attest 0 f) (by decide +kernel)
    (by decide +kernel)
  obtain ⟨D, hd, ea⟩ := attest_ok ((queued attestDesc hub).takeHead 0 attestDesc) 0 attestDesc (by decide +kernel)
    (by decide +kernel)
  have ho : (((queued attestDesc hub).takeHead 0 attestDesc).cls 7).open_ = none := by decide +kernel
  have hr : 4096 ≤ ((queued attestDesc hub).takeHead 0 attestDesc).shareBytes 7 := by decide +kernel
  have hq : (((queued attestDesc hub).takeHead 0 attestDesc).cls 7).occ = 0 := by decide +kernel
  have h := write_fits _ (attestDesc.body 16 8) D
    (fun T => T.commit 0 attestDesc.sq Status.ok attestDesc.tag false [] [(7, T.openSeq 7)] none) hd ho hq hr
    fun T => ⟨rfl, rfl⟩
  rw [← ea] at h
  have hw : (queued attestDesc hub).classWaits 7 = false := by decide +kernel
  rw [State.tryShare, e, if_pos (by rw [hw, decide_eq_true h]; rfl)]
  exact Option.isSome_some

/-- Inputs that meet the hypotheses of `Obligations.StepRunsTheFrontCommand`, clause by clause. -/
theorem witness_StepRunsTheFrontCommand :
    ∃ (s : State), ∃ (c : Instr), ∃ (rest : List Instr), (s.pending = c :: rest) :=
  ⟨{ hub with pending := [.syncX] }, .syncX, [], by decide +kernel⟩

/-- Inputs that meet the hypotheses of `Obligations.EmptyQueuePassesACrossing`, clause by clause. -/
theorem witness_EmptyQueuePassesACrossing :
    ∃ (s : State), (s.pending = []) ∧ (Quiet s) ∧ (s.tick.softResetDue = false) :=
  ⟨hub, by decide +kernel, by rw [Quiet]; decide +kernel, by decide +kernel⟩

/-- Inputs that meet the hypotheses of `Obligations.EveryStepKeepsTheUserAreaCanonical`, clause by clause. -/
theorem witness_EveryStepKeepsTheUserAreaCanonical :
    ∃ (s : State), ∃ (t : State), (UserWf s) ∧ (step s = .next t) :=
  ⟨{ hub with mem := { MemState.init with user := [(131071, 1)] }, pending := [.memWinPlain .spi 255 5] }, after { hub with mem := { MemState.init with user := [(131071, 1)] }, pending := [.memWinPlain .spi 255 5] }, by decide +kernel, rfl⟩

/-- Inputs that meet the hypotheses of `Obligations.EveryStepKeepsTheTablesBounded`, clause by clause. -/
theorem witness_EveryStepKeepsTheTablesBounded :
    (∃ (s : State), ∃ (t : State), (StakesWf s) ∧ (TiesWf s) ∧ (step s = .next t)) ∧
    (∃ (s : State), ∃ (t : State), (OrbitWf s) ∧ (StagedWf s) ∧ (step s = .next t)) :=
  ⟨⟨{ hub with stakes := List.replicate 64 (stakeAt 5 []), ties := List.replicate 64 ⟨[]⟩, pending := [.stake 0] }, after { hub with stakes := List.replicate 64 (stakeAt 5 []), ties := List.replicate 64 ⟨[]⟩, pending := [.stake 0] }, by decide +kernel, by decide +kernel, rfl⟩,
    ⟨{ hub with pending := [.timeOrbitNextWrite .spi 0x00200400] }, after { hub with pending := [.timeOrbitNextWrite .spi 0x00200400] }, by decide +kernel, by decide +kernel, rfl⟩⟩

/-- Inputs that meet the hypotheses of `Obligations.ResetsRestartTheStartUpSequence`, clause by clause. -/
theorem witness_ResetsRestartTheStartUpSequence :
    (∃ lowNs, ∃ (s : State), (500 ≤ lowNs) ∧ (s.power.phase ≠ .rails)) ∧
    (∃ lowNs, (lowNs < 400)) ∧
    (∃ p, ∃ v, ∃ (s : State), (Reaches s p Reg.pwrSoftReset) ∧ (bits v 15 0 = 0xA55A)) ∧
    (∃ p, ∃ v, ∃ (s : State), (Reaches s p Reg.pwrSoftReset) ∧ (bits v 15 0 ≠ 0xA55A)) ∧
    (∃ (s : State), (s.pending = []) ∧ (Quiet s) ∧ (s.tick.softResetDue = true)) :=
  ⟨⟨500, hub, by decide +kernel⟩,
    ⟨399, by decide +kernel⟩,
    ⟨.spi, 0xA55A, hub, by decide +kernel⟩,
    ⟨.downlink, 0xA55B, hub, by decide +kernel⟩,
    ⟨{ hub with time := { hub.time with now := 10400 }, power := { hub.power with softReset := some 10000 } }, by decide +kernel, by rw [Quiet]; decide +kernel, by decide +kernel⟩⟩

/-- Inputs that meet the hypotheses of `Obligations.StartUpPhasesAdvance`, clause by clause. -/
theorem witness_StartUpPhasesAdvance :
    (∃ (s : State), (s.power.phase = .rails)) ∧
    (∃ (s : State), (s.power.phase = .fuse)) ∧
    (∃ (a : CopyRead), ∃ (b : CopyRead), ∃ (s : State), (s.power.phase = .settings) ∧ ((copyOk a || copyOk b) = true)) ∧
    (∃ (s : State), (s.power.phase = .memtest) ∧ (s.fw.settings.columns = [])) ∧
    (∃ (s : State), (s.power.phase = .stack) ∧ (s.fw.settings.rows = [])) ∧
    (∃ (spares : List Nat), ∃ (s : State), ∃ row, ∃ n, (s.power.phase = .stack) ∧ (s.fw.settings.rows = [row]) ∧ (n = (spares.drop (Config.rowGroup row)).headD 0)) ∧
    (∃ (s : State), (s.power.phase = .image) ∧ (s.power.settingsBad = false) ∧ (s.fw.bootSlot ≠ 0) ∧ (s.fw.settings.sets = [])) ∧
    (∃ (s : State), (s.power.phase = .links) ∧ (s.time.sampling = true) ∧ (s.linksMet = true) ∧ (s.servoState ≠ 2) ∧ ((s.refSel = 3 → s.framing.isSome = true))) ∧
    (∃ (s : State), (s.power.phase ≠ .rails)) ∧
    (∃ (s : State), (s.power.phase ≠ .fuse)) ∧
    (∃ (s : State), (s.power.phase ≠ .links)) ∧
    (∃ (s : State), (s.power.phase ≠ .settings)) ∧
    (∃ (s : State), (s.power.phase ≠ .memtest)) ∧
    (∃ (s : State), (s.power.phase ≠ .stack)) ∧
    (∃ (s : State), (s.power.phase ≠ .image)) ∧
    (∃ (s : State), (s.power.phase = .links) ∧ (s.time.sampling = true) ∧ (s.linksMet = true) ∧ (s.power.bootFail = true)) ∧
    (∃ (s : State), ∃ j, (s.power.phase = .links) ∧ (s.time.sampling = true) ∧ (s.linksMet = true) ∧ (s.power.bootFail = false) ∧ ((s.servoState = 2 ∨ (s.refSel = 3 ∧ s.framing = none))) ∧ (s.fld Reg.calCtl 1 0 ≠ 0) ∧ (j < 32) ∧ ((s.stn j).st ≠ 3)) ∧
    (∃ (s : State), (s.power.phase = .links) ∧ (s.time.sampling = true) ∧ (s.linksMet = true) ∧ (s.power.bootFail = false) ∧ ((s.servoState = 2 ∨ (s.refSel = 3 ∧ s.framing = none))) ∧ (s.fld Reg.calCtl 1 0 = 0)) :=
  ⟨⟨State.reset, by decide +kernel⟩,
    ⟨starting .fuse, by decide +kernel⟩,
    ⟨goodCopy, badCopy, starting .settings, by decide +kernel⟩,
    ⟨starting .memtest, by decide +kernel⟩,
    ⟨starting .stack, by decide +kernel⟩,
    ⟨[2, 2, 2, 2], { starting .stack with fw := { FwState.init with settings := { Settings.init with rows := [5] } } }, 5, ([2, 2, 2, 2].drop (Config.rowGroup 5)).headD 0, by decide +kernel, by decide +kernel, rfl⟩,
    ⟨{ starting .image with fw := { FwState.init with bootSlot := 1 } }, by decide +kernel⟩,
    ⟨{ laneIn 2 .up (starting .links) with dla := { RxLaneState.init with stat := .up } }, by decide +kernel⟩,
    ⟨starting .fuse, by decide +kernel⟩,
    ⟨State.reset, by decide +kernel⟩,
    ⟨hub, by decide +kernel⟩,
    ⟨hub, by decide +kernel⟩,
    ⟨hub, by decide +kernel⟩,
    ⟨hub, by decide +kernel⟩,
    ⟨hub, by decide +kernel⟩,
    ⟨{ freeHub with power := { freeHub.power with bootFail := true } }, by decide +kernel⟩,
    ⟨freeHub, 3, by decide +kernel⟩,
    ⟨freeHub.setReg Reg.calCtl 0x400, by decide +kernel⟩⟩

/-- Inputs that meet the hypotheses of `Obligations.StartUpFailuresAreRecorded`, clause by clause. -/
theorem witness_StartUpFailuresAreRecorded :
    (∃ (a : CopyRead), ∃ (b : CopyRead), ∃ (s : State), (s.power.phase = .settings) ∧ (copyOk a = false) ∧ (copyOk b = false)) ∧
    (∃ b, ∃ (s : State), (s.power.phase = .memtest) ∧ (b < 76) ∧ (s.fw.settings.columns = [])) ∧
    (∃ b, ∃ (s : State), (s.power.phase = .memtest) ∧ (b < 76) ∧ (s.fw.settings.columns = []) ∧ (s.spareLeft b = 0)) ∧
    (∃ b, ∃ (s : State), (s.power.phase = .memtest) ∧ (b < 76) ∧ (s.fw.settings.columns = []) ∧ (s.spareLeft b ≠ 0)) ∧
    (∃ a, ∃ b, ∃ c, ∃ (s : State), ((a && b && c) = false) ∧ (s.power.phase = .stack)) :=
  ⟨⟨badCopy, ⟨goodRead, false⟩, starting .settings, by decide +kernel⟩,
    ⟨75, starting .memtest, by decide +kernel⟩,
    ⟨75, (starting .memtest).setBank 75 { Bank.init with used := 16 }, by decide +kernel⟩,
    ⟨75, starting .memtest, by decide +kernel⟩,
    ⟨true, false, true, starting .stack, rfl, by decide +kernel⟩⟩

/-- Inputs that meet the hypotheses of `Obligations.PllAndSamplingStart`, clause by clause. -/
theorem witness_PllAndSamplingStart :
    (∃ (s : State), (s.past .fuse = true) ∧ (s.power.pllLocked = false) ∧ (s.refUsable = true) ∧ (s.reg Reg.lnkUlEn = 0) ∧ ((∀ n, n < 32 → (s.lane n).st = .off))) ∧
    (∃ (s : State), (s.power.pllLocked = true) ∧ (s.refUsable = true)) ∧
    (∃ (s : State), (s.power.pllLocked = true) ∧ (s.past .stack = true) ∧ (s.time.sampling = false)) ∧
    (∃ (s : State), (s.past .fuse = true) ∧ (s.power.pllLocked = false) ∧ (s.refUsable = true) ∧ ((∀ n, n < 32 → bit (s.reg Reg.lnkUlEn) n = false → (s.lane n).st ≠ .up))) ∧
    (∃ (s : State), (s.power.phase = .fault) ∧ (2 < s.power.faultPhase)) :=
  ⟨⟨State.setReg { starting .settings with dla := { RxLaneState.init with stat := .up } } Reg.lnkUlEn 0, by decide +kernel⟩,
    ⟨{ hub with dla := { RxLaneState.init with stat := .up } }, by decide +kernel⟩,
    ⟨{ hub with time := TimeState.init }, by decide +kernel⟩,
    ⟨State.setReg { starting .fault with power := { (starting .fault).power with faultPhase := 4 }, dla := { RxLaneState.init with stat := .up } } Reg.lnkUlEn 0x50, by decide +kernel⟩,
    ⟨{ starting .fault with power := { (starting .fault).power with faultPhase := 3 } }, by decide +kernel⟩⟩

/-- Inputs that meet the hypotheses of `Obligations.RailsStretchesAndScan`, clause by clause. -/
theorem witness_RailsStretchesAndScan :
    (∃ rail, ∃ mV, ∃ (s : State), (rail < 9) ∧ (s.power.phase ≠ .rails) ∧ (88 * railNominal rail ≤ 100 * mV) ∧ (s.railV rail ≠ 0) ∧ (State.railOk { s with railMv := tabSet 0 s.railMv rail mV } rail = false)) ∧
    (∃ rail, ∃ mV, ∃ (s : State), (rail < 9) ∧ (s.power.phase ≠ .rails) ∧ (100 * mV < 88 * railNominal rail)) ∧
    (∃ d, ∃ (s : State), (d ≤ 10 * min 10 (max 2 (bits (s.reg Reg.pwrDroopCfg) 3 0)))) ∧
    (∃ i, ∃ d, ∃ (s : State), (1 ≤ i) ∧ (i ≤ 46) ∧ (tabGet 0 s.power.stretched i = 0) ∧ (10 * min 10 (max 2 (bits (s.reg Reg.pwrDroopCfg) 3 0)) < d)) ∧
    (∃ i, ∃ (s : State), (tabGet 0 s.power.stretched i ≠ 0)) ∧
    (∃ i, ∃ x, ∃ (s : State), (tabGet 0 s.power.stretched i ≠ 0) ∧ (tabGet 0 s.power.stretched i + s.micros 64 ≤ s.time.now + 1) ∧ (x ≤ s.time.xcount + 1) ∧ (i < 256)) ∧
    (∃ i, ∃ x, ∃ n, ∃ (s : State), (1 ≤ i) ∧ (i ≤ 32) ∧ (n ≠ 0) ∧ (tabGet 0 s.power.stretched i ≠ 0) ∧ (tabGet 0 s.power.stretched i + s.micros 64 ≤ s.time.now + 1) ∧ (x + n ≤ s.time.xcount + 1)) ∧
    (∃ x, ∃ n, ∃ (s : State), (n ≠ 0) ∧ (tabGet 0 s.power.stretched 35 ≠ 0) ∧ (tabGet 0 s.power.stretched 35 + s.micros 64 ≤ s.time.now + 1) ∧ (x + n ≤ s.time.xcount + 1)) ∧
    (∃ (s : State), (s.scan = .extest)) :=
  ⟨⟨8, 1700, { hub with railMv := [(8, 1800)], railMin := [(8, 1750)] }, by decide +kernel⟩,
    ⟨8, 1583, hub, by decide +kernel⟩,
    ⟨50, hub, by decide +kernel⟩,
    ⟨46, 51, hub, by decide +kernel⟩,
    ⟨46, { hub with power := { hub.power with stretched := [(46, 9000)] } }, by decide +kernel⟩,
    ⟨1, 5001, { hub with time := { hub.time with now := 60000 }, power := { hub.power with stretched := [(1, 1)] } }, by decide +kernel⟩,
    ⟨32, 4990, 11, { hub with time := { hub.time with now := 60000 }, power := { hub.power with stretched := [(32, 1)] } }, by decide +kernel⟩,
    ⟨4990, 11, { hub with time := { hub.time with now := 60000 }, power := { hub.power with stretched := [(35, 1)] } }, by decide +kernel⟩,
    ⟨{ hub with scan := .extest }, by decide +kernel⟩⟩

/-- Inputs that meet the hypotheses of `Obligations.FastCommandsAct`, clause by clause. -/
theorem witness_FastCommandsAct :
    (∃ (s : State), (s.fcNext fcSyncX = true)) ∧
    (∃ (s : State), (s.fcNext fcResync = true)) ∧
    (∃ (s : State), (s.fcNext fcOrbitAct = true)) ∧
    (∃ (s : State), (s.fcNext fcCalpulse = true)) ∧
    (∃ (s : State), (s.fcNext fcAccept = true) ∧ (bit (s.reg Reg.trgCtl) 0 = true) ∧ (s.trig.accQueue.length < 256)) ∧
    (∃ (s : State), (s.fcNext fcAccept = true) ∧ (bit (s.reg Reg.trgCtl) 0 = false)) ∧
    (∃ (s : State), (s.fcNext fcSyncX = true) ∧ (s.ref.free = false) ∧ ((s.stakes.map Stake.sid).Nodup)) ∧
    (∃ (s : State), (s.fcNext fcAccept = true) ∧ (bit (s.reg Reg.trgCtl) 0 = true) ∧ (256 ≤ s.trig.accQueue.length)) :=
  ⟨⟨fastCmd 0xF8, by decide +kernel⟩,
    ⟨fastCmd 0xF0, by decide +kernel⟩,
    ⟨fastCmd 0xD0, by decide +kernel⟩,
    ⟨fastCmd 0x90, by decide +kernel⟩,
    ⟨(fastCmd 0x80).setReg Reg.trgCtl 1, by decide +kernel⟩,
    ⟨(fastCmd 0x80).setReg Reg.trgCtl 0, by decide +kernel⟩,
    ⟨State.setReg { fastCmd 0x08 with stakes := [stakeAt 5 [], { stakeAt 5 [] with sid := 8, x := 9, runLate := true }, { stakeAt 5 [] with sid := 9, orbit := 2 }, { stakeAt 5 [] with sid := 10, orbit := 2 ^ 30 }] } Reg.timeDatumLoad 0x100064, by decide +kernel⟩,
    ⟨(State.setReg { fastCmd 0x80 with trig := { TrigState.init with accQueue := List.replicate 256 acceptOf, accSeqNext := 3 } } Reg.trgCtl 1), by decide +kernel⟩⟩

/-- Inputs that meet the hypotheses of `Obligations.OrbitValuesAreStagedAndApplied`, clause by clause. -/
theorem witness_OrbitValuesAreStagedAndApplied :
    (∃ (s : State), ∃ p, ∃ v, (s.served p = true) ∧ (s.pageLocked 1 = false) ∧ ((1024 ≤ bits v 12 0 ∧ bits v 12 0 ≤ 8191 ∧ 32 ≤ bits v 25 16 ∧ bits v 25 16 ≤ 1023 ∧ (bits v 25 16 : Int) ≤ (bits v 12 0 : Int) - 512))) ∧
    (∃ (s : State), ∃ p, ∃ v, (s.served p = true) ∧ (s.pageLocked 1 = false) ∧ (¬ (1024 ≤ bits v 12 0 ∧ bits v 12 0 ≤ 8191 ∧ 32 ≤ bits v 25 16 ∧ bits v 25 16 ≤ 1023 ∧ (bits v 25 16 : Int) ≤ (bits v 12 0 : Int) - 512))) ∧
    (∃ (s : State), (s.fcNext fcOrbitAct = true)) ∧
    (∃ (s : State), ∃ a, (s.time.orbitArm = some a) ∧ (a < s.time.now)) ∧
    (∃ (s : State), ((∀ a, s.time.orbitArm = some a → s.time.now ≤ a))) ∧
    (∃ (s : State), (s.past .fuse = true) ∧ (s.time.cross = 0) ∧ (s.time.orbitStartAt ≠ some s.time.now)) :=
  ⟨⟨hub, .spi, 0x00200400, by decide +kernel⟩,
    ⟨hub, .spi, 0, by decide +kernel⟩,
    ⟨fastCmd 0x40, by decide +kernel⟩,
    ⟨{ hub with time := { hub.time with orbitArm := some 9999 } }, 9999, by decide +kernel⟩,
    ⟨{ hub with time := { hub.time with orbitArm := some 10000 } }, fun a h => by cases h; decide +kernel⟩,
    ⟨atOrbit, by decide +kernel⟩⟩

/-- Inputs that meet the hypotheses of `Obligations.OrbitStartFormsATieRecord`, clause by clause. -/
theorem witness_OrbitStartFormsATieRecord :
    ∃ (s : State), (s.past .fuse = true) ∧ (s.time.cross = 0) ∧ (s.time.orbitStartAt ≠ some s.time.now) :=
  ⟨atOrbit, by decide +kernel⟩

/-- Inputs that meet the hypotheses of `Obligations.ExchangeAndServo`, clause by clause. -/
theorem witness_ExchangeAndServo :
    (∃ (s : State), ∃ t2, ∃ o, (s.exchangeDue = true) ∧ (s.servo.k281 = some (t2, o))) ∧
    (∃ b, ∃ (s : State), (s.past .links = true) ∧ ((s.reportFor (byteAt b 0) = none ∨ ∃ f, s.reportFor (byteAt b 0) = some f ∧ s.rttOutlier f (le b 16 8) (le b 24 8) = true))) ∧
    (∃ b, ∃ (s : State), ∃ f, (s.past .links = true) ∧ (s.reportFor (byteAt b 0) = some f) ∧ (s.rttOutlier f (le b 16 8) (le b 24 8) = false) ∧ (adoptOf b f = none)) ∧
    (∃ (s : State), (64 < s.servo.missRun) ∧ (s.servo.holdPhase = false)) :=
  ⟨⟨{ laneIn 2 .up hub with servo := { ServoState.init with frameDue := true, k281 := some (0, 1) } }, 0, 1, by decide +kernel⟩,
    ⟨[4], exchanged, by decide +kernel, Or.inl (by decide +kernel)⟩,
    ⟨[3], exchanged, ⟨3, 0, 0, 1, false, 0, 9000⟩, by decide +kernel⟩,
    ⟨{ hub with servo := { ServoState.init with missRun := 65 } }, by decide +kernel⟩⟩

/-- Inputs that meet the hypotheses of `Obligations.StakeEntersTheTableOrCompletes`, clause by clause. -/
theorem witness_StakeEntersTheTableOrCompletes :
    (∃ ring, ∃ (s : State), ∃ f, (Accepts s ring f 0x10) ∧ (s.engineUp 3 = true) ∧ ((s.takeHead ring f).stakeFails ((s.takeHead ring f).stakeOf ring f) (f.body 10 1) = none)) ∧
    (∃ ring, ∃ (s : State), ∃ f, ∃ st, (Accepts s ring f 0x10) ∧ (s.engineUp 3 = true) ∧ ((s.takeHead ring f).stakeFails ((s.takeHead ring f).stakeOf ring f) (f.body 10 1) = some st)) ∧
    (∃ (k : Stake), ∃ p, ((1 < p ∨ (p = 1 ∧ (k.action = 7 ∨ k.action = 8)) ∨ 8191 < k.x ∨ 2 ^ 44 ≤ k.orbit))) ∧
    (∃ (s : State), ∃ k, ∃ p, ∃ st, (p ≤ 1) ∧ ((p = 1 → k.action ≠ 7 ∧ k.action ≠ 8)) ∧ (k.x ≤ 8191) ∧ (k.orbit < 2 ^ 44) ∧ (s.stakeArgs k = some st)) ∧
    (∃ (k : Stake), (k.action = 0 ∨ 8 < k.action)) ∧
    (∃ (s : State), ∃ k, ∃ p, (p ≤ 1) ∧ ((p = 1 → k.action ≠ 7 ∧ k.action ≠ 8)) ∧ (k.x ≤ 8191) ∧ (k.orbit < 2 ^ 44) ∧ (s.stakeArgs k = none) ∧ (k.runLate = false) ∧ ((s.distance k.orbit k.x < 8 ∨ (k.action ≠ 7 ∧ s.cannotOccur k = true)))) ∧
    (∃ (s : State), ∃ k, ∃ p, (p ≤ 1) ∧ ((p = 1 → k.action ≠ 7 ∧ k.action ≠ 8)) ∧ (k.x ≤ 8191) ∧ (k.orbit < 2 ^ 44) ∧ (s.stakeArgs k = none) ∧ (2 ^ 40 < s.distance k.orbit k.x)) ∧
    (∃ (s : State), ∃ k, ∃ p, (p ≤ 1) ∧ ((p = 1 → k.action ≠ 7 ∧ k.action ≠ 8)) ∧ (k.x ≤ 8191) ∧ (k.orbit < 2 ^ 44) ∧ (s.stakeArgs k = none) ∧ ((k.runLate = true ∨ (8 ≤ s.distance k.orbit k.x ∧ s.cannotOccur k = false))) ∧ (s.distance k.orbit k.x ≤ 2 ^ 40) ∧ (k.action ≠ 7)) :=
  ⟨⟨0, queued (descOf 0x10 [1, 0, 0, 0, 0, 0, 0, 0, 200, 0, 0, 5]) hub, descOf 0x10 [1, 0, 0, 0, 0, 0, 0, 0, 200, 0, 0, 5], by decide +kernel⟩,
    ⟨0, queued (descOf 0x10 [1, 0, 0, 0, 0, 0, 0, 0, 100, 0, 0, 5]) hub, descOf 0x10 [1, 0, 0, 0, 0, 0, 0, 0, 100, 0, 0, 5], Status.late, by decide +kernel⟩,
    ⟨{ stakeAt 5 [] with x := 8192 }, 0, by decide +kernel⟩,
    ⟨hub, stakeAt 9 [], 0, Status.unsupported, by decide +kernel⟩,
    ⟨stakeAt 9 [], by decide +kernel⟩,
    ⟨hub, stakeAt 5 [], 0, by decide +kernel⟩,
    ⟨hub, { stakeAt 5 [] with orbit := 2 ^ 40 }, 0, by decide +kernel⟩,
    ⟨{ hub with stakes := List.replicate 64 (stakeAt 5 []) }, { stakeAt 5 [] with orbit := 3 }, 0, by decide +kernel⟩⟩

/-- Inputs that meet the hypotheses of `Obligations.StakeActionsRun`, clause by clause. -/
theorem witness_StakeActionsRun :
    (∃ sid, ∃ (s : State), ∃ k, (s.stakes.find? (fun q => q.sid == sid && q.action == 1 && q.frame.isNone) = some k) ∧ ((k.lateAt.isSome || (s.distance k.orbit k.x ≤ 128 && !s.ref.free)) = true) ∧ (frameOk (s.frameBuffer (byteAt k.args 0)) = true)) ∧
    (∃ (s : State), ∃ k, ∃ b, (s.heldLaunch = none) ∧ (s.dueStake 0x01 = some k) ∧ (k.frame = some b) ∧ (s.laneUp (byteAt b 0) = true) ∧ ((s.lane (byteAt b 0)).job = .idle)) ∧
    (∃ (s : State), ∃ k, ∃ b, (s.heldLaunch = none) ∧ (s.dueStake 0x01 = some k) ∧ (k.frame = some b) ∧ (s.laneUp (byteAt b 0) = true) ∧ ((s.lane (byteAt b 0)).job ≠ .idle)) ∧
    (∃ (s : State), ∃ k, ∃ b, (s.heldLaunch = some k) ∧ (k.frame = some b) ∧ (s.laneUp (byteAt b 0) = true)) ∧
    (∃ (s : State), ∃ k, ∃ b, (s.heldLaunch = none) ∧ (s.dueStake 0x01 = some k) ∧ (k.frame = some b) ∧ (s.laneUp (byteAt b 0) = false)) ∧
    (∃ (s : State), ∃ k, (s.dueStake 0x02 = some k) ∧ ((writePairs k.args).any (fun p => s.pageLocked (p.1 / 0x1000)) = false)) ∧
    (∃ (s : State), ∃ k, (s.dueStake 0x02 = some k) ∧ ((writePairs k.args).any (fun p => s.pageLocked (p.1 / 0x1000)) = true)) ∧
    (∃ (s : State), ∃ k, (s.dueStake 0x03 = some k)) ∧
    (∃ (s : State), ∃ k, (s.dueStake 0x04 = some k)) ∧
    (∃ (s : State), ∃ k, (s.dueStake 0x05 = some k)) ∧
    (∃ (s : State), ∃ k, (s.dueStake 0x06 = some k)) :=
  ⟨⟨7, framed (staked (stakeAt 1 [0])), stakeAt 1 [0], by decide +kernel⟩,
    ⟨laneIn 2 .up (staked { stakeAt 1 [0] with frame := some [2, 0, 1] }), { stakeAt 1 [0] with frame := some [2, 0, 1] }, [2, 0, 1], by decide +kernel⟩,
    ⟨(staked { stakeAt 1 [0] with frame := some [2, 0, 1] }).setLane 2 { TxLane.init with st := .up, job := .packet 0 0 }, { stakeAt 1 [0] with frame := some [2, 0, 1] }, [2, 0, 1], by decide +kernel⟩,
    ⟨laneIn 2 .up (staked { stakeAt 1 [0] with frame := some [2, 0, 1], held := true }), { stakeAt 1 [0] with frame := some [2, 0, 1], held := true }, [2, 0, 1], by decide +kernel⟩,
    ⟨staked { stakeAt 1 [0] with frame := some [2, 0, 1] }, { stakeAt 1 [0] with frame := some [2, 0, 1] }, [2, 0, 1], by decide +kernel⟩,
    ⟨staked (stakeAt 2 [1, 0, 0, 0, 0, 0x10, 0, 0]), stakeAt 2 [1, 0, 0, 0, 0, 0x10, 0, 0], by decide +kernel⟩,
    ⟨(staked (stakeAt 2 [1, 0, 0, 0, 0, 0x10, 0, 0])).setReg Reg.topLock 2, stakeAt 2 [1, 0, 0, 0, 0, 0x10, 0, 0], by decide +kernel⟩,
    ⟨staked (stakeAt 3 []), stakeAt 3 [], by decide +kernel⟩,
    ⟨staked (stakeAt 4 []), stakeAt 4 [], by decide +kernel⟩,
    ⟨staked (stakeAt 5 []), stakeAt 5 [], by decide +kernel⟩,
    ⟨staked (stakeAt 6 []), stakeAt 6 [], by decide +kernel⟩⟩

/-- Inputs that meet the hypotheses of `Obligations.GapStartAppliesTheServo`, clause by clause. -/
theorem witness_GapStartAppliesTheServo :
    ∃ (s : State), (s.past .fuse = true) ∧ (s.atGap = true) ∧ (s.time.gapStartAt ≠ some s.time.now) ∧ (s.dueStakes = []) ∧ ((s.time.fcQueue.any fun e => e.act == s.time.now && 8 ≤ e.fc.toNat) = false) ∧ (s.offlineOverdue = false) :=
  ⟨moved, by decide +kernel⟩

/-- Inputs that meet the hypotheses of `Obligations.GapStartCompletes`, clause by clause. -/
theorem witness_GapStartCompletes :
    ∃ (s : State), (s.past .fuse = true) ∧ (s.atGap = true) ∧ (s.time.gapStartAt ≠ some s.time.now) ∧ (s.dueStakes = []) ∧ ((s.time.fcQueue.any fun e => e.act == s.time.now && 8 ≤ e.fc.toNat) = false) ∧ (s.offlineOverdue = false) :=
  ⟨atGap, by decide +kernel⟩

/-- Inputs that meet the hypotheses of `Obligations.SamplesBecomeContainers`, clause by clause. -/
theorem witness_SamplesBecomeContainers :
    (∃ ch, ∃ k, ∃ (s : State), (ch < 512) ∧ (k < 4) ∧ (s.time.sampling = true) ∧ ((∀ v, (s.chan ch).hist.head? = some v → v.n < 4 * s.time.xcount + k)) ∧ ((s.time.cross + s.g = s.n → s.time.gapStartAt = some s.time.now)) ∧ ((s.time.cross = 0 → s.time.orbitStartAt = some s.time.now)) ∧ (s.dcTest.held = none) ∧ (s.chEn ch = true) ∧ (s.filterDue (ch / 16) = false) ∧ (s.lost (ch / 16) (2 * (ch % 16) + k % 2) = false)) ∧
    (∃ ch, ∃ k, ∃ (s : State), (ch < 512) ∧ (k < 4) ∧ (s.time.sampling = true) ∧ ((∀ v, (s.chan ch).hist.head? = some v → v.n < 4 * s.time.xcount + k)) ∧ ((s.time.cross + s.g = s.n → s.time.gapStartAt = some s.time.now)) ∧ ((s.time.cross = 0 → s.time.orbitStartAt = some s.time.now)) ∧ (s.dcTest.held = none) ∧ (s.chEn ch = false) ∧ (s.filterDue (ch / 16) = false)) :=
  ⟨⟨511, 3, hub.setEff (Reg.feCh 511) 1, by decide +kernel, by decide +kernel, by decide +kernel, by decide +kernel, by decide +kernel⟩,
    ⟨511, 3, hub.setEff (Reg.feCh 511) 0, by decide +kernel⟩⟩

/-- Inputs that meet the hypotheses of `Obligations.FrontEndSettingsAndSources`, clause by clause. -/
theorem witness_FrontEndSettingsAndSources :
    (∃ p, ∃ ch, ∃ (s : State), (Reaches s p (Reg.feCh (ch % 512)))) ∧
    (∃ (s : State), (s.time.sampling = true) ∧ (s.time.cross + 16 = s.n) ∧ (bit (s.reg Reg.feTestCtl) 0 = true) ∧ (s.time.testOnAt ≠ some s.time.now)) ∧
    (∃ (s : State), (s.time.cross + 8 = s.n) ∧ (s.dcTest.begun = true) ∧ (s.dcTest.current = true)) ∧
    (∃ i, ∃ (s : State), (i < 4) ∧ ((s.src i).out ≠ 0) ∧ ((s.src i).width ≠ 0) ∧ (s.time.xcount = (s.src i).firedAt + (s.src i).width)) :=
  ⟨⟨.downlink, 511, hub, by decide +kernel⟩,
    ⟨({ hub with time := { hub.time with cross := 2784 } }).setReg Reg.feTestCtl 1, by decide +kernel⟩,
    ⟨{ hub with time := { hub.time with cross := 2792 }, dcTest := { DcTest.init with begun := true, current := true } }, by decide +kernel⟩,
    ⟨3, hub.setSrc 3 { InjSource.init with out := -5, firedAt := 4990, width := 10 }, by decide +kernel⟩⟩

/-- Inputs that meet the hypotheses of `Obligations.BacksightMeasuresAndRecords`, clause by clause. -/
theorem witness_BacksightMeasuresAndRecords :
    (∃ st, ∃ sums, ∃ (s : State), ∃ b, ∃ j, ((s.stn st).job = some b) ∧ (st < 32) ∧ (sums.length = 16) ∧ (b.offlineDone = false) ∧ (b.discard = false) ∧ (b.phase = .offline ∧ b.step = .visit j ∧ j < 32 ∨ b.phase = .selfCalibrating ∧ b.step = .selfCal ∧ j = 32) ∧ (b.ends ≤ s.time.xcount) ∧ (levelsPass sums (s.slice (sliceNo st j)).gain = true)) ∧
    (∃ ch, ∃ (s : State), (ch < 512) ∧ ((s.chan ch).pedFrom + s.fld1 Reg.calAge 7 0 ≤ s.time.orbitNo) ∧ (256 ≤ (s.chan ch).evenCnt) ∧ (256 ≤ (s.chan ch).oddCnt)) ∧
    (∃ st, ∃ j, ∃ (s : State), (st < 32) ∧ (j < 33) ∧ (s.converterBad st j = true)) ∧
    (∃ (s : State), (s.backsightUp = true) ∧ (s.time.saveAt = none)) ∧
    (∃ p, ∃ (s : State), (Reaches s p Reg.calCtl)) ∧
    (∃ p, ∃ (s : State), (Reaches s p Reg.calRun)) ∧
    (∃ ch, ∃ (s : State), ∃ d, ∃ n, ∃ v, (ch < 512) ∧ ((s.chan ch).pedFrom + s.fld1 Reg.calAge 7 0 ≤ s.time.orbitNo) ∧ (256 ≤ (s.chan ch).evenCnt) ∧ (256 ≤ (s.chan ch).oddCnt) ∧ (d = roundHalfOut (8 * (((s.chan ch).oddSum : Int) * (s.chan ch).evenCnt - ((s.chan ch).evenSum : Int) * (s.chan ch).oddCnt)) ((s.chan ch).evenCnt * (s.chan ch).oddCnt)) ∧ (n = sliceNo (ch / 16) (s.oddConverter ch)) ∧ (v = s.slice n)) ∧
    (∃ (s : State), ∃ a, (s.backsightUp = true) ∧ (s.time.saveAt = some a) ∧ (600 * 10 ^ 12 * 2 ^ 24 ≤ (s.time.now - a) * s.period)) ∧
    (∃ (s : State), ∃ a, (s.time.saveAt = some a) ∧ ((s.time.now - a) * s.period < 600 * 10 ^ 12 * 2 ^ 24)) :=
  ⟨⟨31, (upto 0 16).map (· * 983040), hub.setStn 31 { Station.init with job := some visiting }, visiting, 31, by decide +kernel, by decide +kernel, by decide +kernel, by decide +kernel, by decide +kernel, Or.inl (by decide +kernel), by decide +kernel⟩,
    ⟨511, State.setChan { hub with time := { hub.time with orbitNo := 255 } } 511 { Channel.init with evenCnt := 256, oddCnt := 256 }, by decide +kernel⟩,
    ⟨31, 32, hub.setSlice (sliceNo 31 32) { Slice.init with limitRun := 8 }, by decide +kernel⟩,
    ⟨hub, by decide +kernel⟩,
    ⟨.spi, hub, by decide +kernel⟩,
    ⟨.downlink, hub, by decide +kernel⟩,
    ⟨511, State.setChan { hub with time := { hub.time with orbitNo := 255 } } 511 { Channel.init with evenSum := 25600, oddSum := 25500, evenCnt := 256, oddCnt := 256 }, -3, sliceNo 31 31, hub.slice (sliceNo 31 31), by decide +kernel⟩,
    ⟨{ hub with time := { hub.time with now := 30 * 10 ^ 9, saveAt := some 3 } }, 3, by decide +kernel⟩,
    ⟨{ hub with time := { hub.time with saveAt := some 9999 } }, 9999, by decide +kernel⟩⟩

/-- Inputs that meet the hypotheses of `Obligations.FilterSettingsAndOutputs`, clause by clause. -/
theorem witness_FilterSettingsAndOutputs :
    (∃ p, ∃ off, ∃ (s : State), ∃ a, (a = Reg.stnSel + off % 0x1000) ∧ (a ∈ stnStagedAddrs) ∧ (Reaches s p a)) ∧
    (∃ p, ∃ (s : State), (Reaches s p Reg.stnCtl)) ∧
    (∃ st, ∃ (s : State), ∃ a, ((s.stn st).applyAt = some a) ∧ (st < 32) ∧ (s.time.sampling = true) ∧ (s.time.cross = s.n - s.g + 12) ∧ (a + 20 ≤ s.time.now)) ∧
    (∃ ch, ∃ (s : State), ∃ x, (s.nextLabel ch = some x) ∧ (ch < 512) ∧ (s.time.sampling = true)) ∧
    (∃ st, ∃ (s : State), (st < 32) ∧ (s.time.sampling = true) ∧ ((s.time.cross + 1) % 2 ^ s.detWin st = 0 ∨ s.time.cross + 1 = s.n) ∧ ((s.stn st).detAt ≠ some s.time.xcount)) ∧
    (∃ st, ∃ (s : State), (((s.stn st).applyAt = none ∨ s.time.cross ≠ s.n - s.g + 12 ∨ s.time.sampling = false ∨ 32 ≤ st))) ∧
    (∃ st, ∃ (s : State), ∃ a, ((s.stn st).applyAt = some a) ∧ (s.time.now < a + 20)) :=
  ⟨⟨.spi, Reg.stnCh 15 - Reg.stnSel, hub, Reg.stnCh 15, by decide +kernel⟩,
    ⟨.spi, hub, by decide +kernel⟩,
    ⟨31, ({ hub with time := { hub.time with cross := 2700 } }).setStn 31 { Station.init with applyAt := some 9980 }, 9980, by decide +kernel⟩,
    ⟨511, hub, (hub.nextLabel 511).getD 0, by decide +kernel⟩,
    ⟨31, { hub with time := { hub.time with cross := 2799 } }, by decide +kernel, by decide +kernel, Or.inr (by decide +kernel), by decide +kernel⟩,
    ⟨31, hub, by decide +kernel⟩,
    ⟨31, hub.setStn 31 { Station.init with applyAt := some 9981 }, 9981, by decide +kernel⟩⟩

/-- Inputs that meet the hypotheses of `Obligations.GroupsAndPrimitives`, clause by clause. -/
theorem witness_GroupsAndPrimitives :
    (∃ (s : State), (s.time.sampling = true) ∧ (s.groupEnd s.trig.groupX + 18 ≤ s.time.xcount) ∧ (s.outputsIn (s.groupEnd s.trig.groupX + 1) = true)) ∧
    (∃ (s : State), (s.time.sampling = true) ∧ (s.primLat ≤ s.time.xcount) ∧ (s.time.primAt ≠ some s.time.now)) :=
  ⟨⟨hub, by decide +kernel⟩,
    ⟨hub, by decide +kernel⟩⟩

/-- Inputs that meet the hypotheses of `Obligations.AcceptsAreServed`, clause by clause. -/
theorem witness_AcceptsAreServed :
    (∃ (s : State), ∃ acc, (s.nextService = some acc) ∧ (s.time.sampling = true) ∧ (s.evbAwake = true) ∧ ((s.engine 2).restarting = false)) ∧
    (∃ seq, ∃ (s : State), ∃ acc, ∃ b, (s.trig.accQueue.find? (fun a => a.seq == seq) = some acc) ∧ (acc.frag = some b)) ∧
    (∃ p, ∃ v, ∃ (s : State), (Reaches s p Reg.trgWin) ∧ (bits v 3 0 + bits v 8 4 ≤ 31)) ∧
    (∃ p, ∃ v, ∃ (s : State), (Reaches s p Reg.trgWin) ∧ (31 < bits v 3 0 + bits v 8 4)) ∧
    (∃ m, ∃ (s : State), (memNat s.mem.waking m = true)) :=
  ⟨⟨{ hub with trig := { hub.trig with groupX := 4907, accQueue := [acceptOf] } }, acceptOf, by decide +kernel⟩,
    ⟨3, { hub with trig := { hub.trig with accQueue := [{ acceptOf with frag := some emptyFrag }] } }, { acceptOf with frag := some emptyFrag }, emptyFrag, by decide +kernel⟩,
    ⟨.spi, 0x1F0, hub, by decide +kernel⟩,
    ⟨.spi, 0x1F1, hub, by decide +kernel⟩,
    ⟨16, { hub with mem := { MemState.init with waking := [16] } }, by decide +kernel⟩⟩

/-- Inputs that meet the hypotheses of `Obligations.TraverseSteps`, clause by clause. -/
theorem witness_TraverseSteps :
    (∃ p, ∃ (s : State), (Reaches s p Reg.trgTrvCtl)) ∧
    (∃ p, ∃ v, ∃ (s : State), (Reaches s p Reg.trgTrvCtl) ∧ (bit v 8 = false)) ∧
    (∃ (s : State), ∃ l, (s.trvCond = some l) ∧ (s.trvLive = true) ∧ (s.trvByte s.trig.trv.state 1 = 0) ∧ (s.trvByte s.trig.trv.state 2 ≠ 0xFF)) ∧
    (∃ (s : State), ∃ l, (s.trvCond = some l) ∧ (s.trvLive = true) ∧ (s.trvByte s.trig.trv.state 1 = 1) ∧ (s.fcActs fcAccept = false) ∧ (s.trig.accQueue.length < 256)) ∧
    (∃ (s : State), ∃ l, (s.trvCond = some l) ∧ (s.trvLive = true) ∧ (s.trvByte s.trig.trv.state 1 = 2)) ∧
    (∃ (s : State), ∃ l, (s.trvCond = some l) ∧ (s.trvLive = true) ∧ (s.trvByte s.trig.trv.state 1 = 3)) ∧
    (∃ (s : State), ∃ l, (s.trvCond = some l) ∧ (s.trvLive = true) ∧ (s.trvByte s.trig.trv.state 1 = 4) ∧ (s.trig.trv.counters.length = 4)) ∧
    (∃ (s : State), ∃ l, (s.trvCond = some l) ∧ (s.trvLive = true) ∧ (s.trvByte s.trig.trv.state 1 = 5)) ∧
    (∃ (s : State), ∃ l, (s.trvCond = some l) ∧ (s.trvLive = true) ∧ (s.trvByte s.trig.trv.state 1 = 6)) ∧
    (∃ (s : State), (s.trig.trv.run = true) ∧ (s.trvTimeout s.trig.trv.state ≠ 0) ∧ (s.trig.trv.entered + s.trvTimeout s.trig.trv.state ≤ s.time.now) ∧ (s.trvByte s.trig.trv.state 3 ≠ 0xFF)) ∧
    (∃ (s : State), ∃ l, (s.trvCond = some l) ∧ (s.trvLive = true) ∧ (s.trvByte s.trig.trv.state 1 = 0) ∧ (s.trvByte s.trig.trv.state 2 = 0xFF)) ∧
    (∃ (s : State), (s.trig.trv.run = true) ∧ (s.trvTimeout s.trig.trv.state ≠ 0) ∧ (s.trig.trv.entered + s.trvTimeout s.trig.trv.state ≤ s.time.now) ∧ (s.trvByte s.trig.trv.state 3 = 0xFF)) :=
  ⟨⟨.spi, hub, by decide +kernel⟩,
    ⟨.spi, 2, hub, by decide +kernel⟩,
    ⟨traversing 0x00000000 0, 5000, by decide +kernel⟩,
    ⟨traversing 0x00000100 0, 5000, by decide +kernel⟩,
    ⟨traversing 0x00000200 0, 5000, by decide +kernel⟩,
    ⟨traversing 0x00000300 0, 5000, by decide +kernel⟩,
    ⟨traversing 0x00000400 0, 5000, by decide +kernel⟩,
    ⟨traversing 0x00000500 0, 5000, by decide +kernel⟩,
    ⟨traversing 0x00000600 0, 5000, by decide +kernel⟩,
    ⟨traversing 0 1, by decide +kernel⟩,
    ⟨traversing 0xFF0000 0, 5000, by decide +kernel⟩,
    ⟨traversing 0xFF000000 1, by decide +kernel⟩⟩

/-- Inputs that meet the hypotheses of `Obligations.ContourTestsMasks`, clause by clause. -/
theorem witness_ContourTestsMasks :
    (∃ m, ∃ (s : State), ∃ (n0 : Nat), (s.alignment m = some n0) ∧ (s.maskEn m = true) ∧ (s.alignsFirst m = true) ∧ ((∀ q, (s.mask m).test = some q → q.first + q.len ≤ (n0 : Int))) ∧ ((s.mask m).ended ≤ n0)) ∧
    (∃ m, ∃ (s : State), ∃ (n0 : Nat), ∃ q, (s.alignment m = some n0) ∧ (s.maskEn m = true) ∧ (s.alignsFirst m = true) ∧ ((s.mask m).test = some q) ∧ ((n0 : Int) < q.first + q.len)) ∧
    (∃ m, ∃ (s : State), ∃ i, ∃ v, ∃ lo, ∃ hi, (s.violation m = some (i, v, lo, hi)) ∧ (s.maskEn m = true) ∧ (s.alignsFirst m = false)) ∧
    (∃ m, ∃ (s : State), ∃ (n0 : Nat), (s.alignment m = some n0) ∧ (s.maskEn m = true) ∧ (s.alignsFirst m = true) ∧ (n0 < (s.mask m).ended)) :=
  ⟨⟨7, masked (some ⟨19980, 19980, 12⟩), 19992, by decide +kernel, by decide +kernel, by decide +kernel, fun q h => by cases h; decide +kernel, by decide +kernel⟩,
    ⟨7, masked (some ⟨19990, 19990, 11⟩), 19992, ⟨19990, 19990, 11⟩, by decide +kernel⟩,
    ⟨7, (masked (some ⟨19990, 19990, 4⟩)).setChan 0 { Channel.init with hist := [⟨19990, 0, 5, false, true, false, false, false, false⟩] }, 0, ⟨19990, 0, 5, false, true, false, false, false, false⟩, false, true, by decide +kernel⟩,
    ⟨7, (masked none).setMask 7 ⟨none, 0, 20000⟩, 19992, by decide +kernel⟩⟩

/-- Inputs that meet the hypotheses of `Obligations.BlocksAreWrittenIndexedAndScrubbed`, clause by clause. -/
theorem witness_BlocksAreWrittenIndexedAndScrubbed :
    (∃ (s : State), (s.time.sampling = true) ∧ (256 * s.hist.periods + 257 ≤ s.time.xcount) ∧ (s.time.blockAt ≠ some s.time.now)) ∧
    (∃ period, ∃ st, ∃ (s : State), (s.e1Up = true) ∧ ((period, st) ∈ s.hist.toIndex)) ∧
    (∃ (s : State), (bit (s.reg Reg.hisCtl) 0 = true) ∧ (s.past .stack = true) ∧ (s.engineUp 6 = true) ∧ (s.hist.scrubBytes < retainedBytes) ∧ ((s.inDebt = true ∨ (s.fragmentWaits = false ∧ s.nextTurn = none)))) ∧
    (∃ (s : State), (s.past .stack = true) ∧ (s.hist.scrubStart + s.scrubPeriod ≤ s.time.now)) :=
  ⟨⟨withHist fun h => { h with periods := 18 }, by decide +kernel⟩,
    ⟨3, 31, withHist fun h => { h with toIndex := [(3, 31)] }, by decide +kernel⟩,
    ⟨hub.setReg Reg.hisCtl 1, by decide +kernel⟩,
    ⟨{ hub with time := { hub.time with now := 1000000000000 } }, by decide +kernel⟩⟩

/-- Inputs that meet the hypotheses of `Obligations.RecallsAndPins`, clause by clause. -/
theorem witness_RecallsAndPins :
    (∃ ring, ∃ (s : State), ∃ f, (Accepts s ring f 0x20) ∧ (s.prepOf ring f.sq = none) ∧ (s.recallReads ring f ≠ []) ∧ (s.ctl.reads.length + (s.recallReads ring f).length ≤ 64) ∧ (s.readFree = true)) ∧
    (∃ ring, ∃ (s : State), ∃ f, ∃ p, (Accepts s ring f 0x20) ∧ (s.e1Up = true) ∧ (s.prepOf ring f.sq = p) ∧ ((p = none → s.recallReads ring f = [])) ∧ (s.recallBadDesc f.recallDesc p = true)) ∧
    (∃ ring, ∃ (s : State), ∃ f, ∃ p, ∃ x, (Accepts s ring f 0x20) ∧ (s.e1Up = true) ∧ (s.prepOf ring f.sq = p) ∧ ((p = none → s.recallReads ring f = [])) ∧ (s.recallBadDesc f.recallDesc p = false) ∧ (State.recallBadAddr f.recallDesc p = false) ∧ (s.recallStart f.recallDesc = some x) ∧ ((stationsOf (f.recallDesc.chans (p.bind (·.mask)))).any (s.gone (x / 256)) = false) ∧ (f.recallDesc.pin = false) ∧ (f.recallDesc.resume = false)) ∧
    (∃ ring, ∃ (s : State), ∃ f, ∃ p, ∃ x, (Accepts s ring f 0x20) ∧ (s.e1Up = true) ∧ (s.prepOf ring f.sq = p) ∧ ((p = none → s.recallReads ring f = [])) ∧ (s.recallBadDesc f.recallDesc p = false) ∧ (State.recallBadAddr f.recallDesc p = false) ∧ (s.recallStart f.recallDesc = some x) ∧ ((stationsOf (f.recallDesc.chans (p.bind (·.mask)))).any (s.gone (x / 256)) = false) ∧ (f.recallDesc.pin = false) ∧ (f.recallDesc.resume = true) ∧ (recallFirst f.recallDesc.form (f.recallDesc.chans (p.bind (·.mask))) x f.recallDesc.count (some ((extend48 f.recallDesc.resumeX s.time.xcount).toNat, if f.recallDesc.form < 2 then 16 * f.recallDesc.resumeStn + f.recallDesc.resumePos else 16 * f.recallDesc.resumeStn)) = none)) ∧
    (∃ ecc, ∃ row, ∃ (s : State), ∃ r, (s.nextRecall = some r) ∧ ((s.tryShare 3 0 fun t => t.recallUnit r ecc row).isSome = true)) ∧
    (∃ rid, ∃ (s : State), ∃ r, (s.hist.recalls.find? (fun q => q.rid == rid) = some r) ∧ ((s.recallWaits r || s.pinWaits r) = true) ∧ (r.waitEnd ≤ s.time.now) ∧ (r.aborted = false) ∧ ((s.tryShare 3 0 fun t => t.recallStop r Status.futureTimeout).isSome = true)) ∧
    (∃ (s : State), ∃ p, ∃ k, ∃ st, (s.nextCopy = some (p, k, st))) ∧
    (∃ ring, ∃ (s : State), ∃ f, ∃ p, (Accepts s ring f 0x21) ∧ (f.zero 1 47 = true) ∧ (s.hist.pins.find? (fun q => q.handle == f.body 0 1) = some p)) ∧
    (∃ ring, ∃ (s : State), ∃ f, (Accepts s ring f 0x21) ∧ (f.zero 1 47 = true) ∧ (s.hist.pins.find? (fun q => q.handle == f.body 0 1) = none)) :=
  ⟨⟨0, queued (recallDescOf 16) hub, recallDescOf 16, by decide +kernel⟩,
    ⟨0, queued (recallDescOf 0) hub, recallDescOf 0, none, by decide +kernel⟩,
    ⟨0, { queued (recallDescOf 16) hub with ctl := { (queued (recallDescOf 16) hub).ctl with preps := [recallPrep] } }, recallDescOf 16, some recallPrep, 6000, by decide +kernel⟩,
    ⟨0, { queued resumeDesc hub with ctl := { (queued resumeDesc hub).ctl with preps := [recallPrep] } }, resumeDesc, some recallPrep, 6000, by decide +kernel⟩,
    ⟨.clean, 0, withHist fun h => { h with recalls := [{ recallOf with period := 0 }], periods := 4, index := [(indexKey 0 0, some ⟨8388608, false, false, 0, 0⟩)] }, { recallOf with period := 0 }, by decide +kernel⟩,
    ⟨3, withHist fun h => { h with recalls := [recallOf] }, recallOf, by decide +kernel⟩,
    ⟨withHist fun h => { h with periods := 4, index := [(indexKey 0 0, some ⟨8388608, false, false, 0, 0⟩)], pins := [⟨5, 1, [(0, 0)], [], false, 3, false⟩], recalls := [{ recallOf with pin := some 5, outDone := true }] }, ⟨5, 1, [(0, 0)], [], false, 3, false⟩, 0, 0, by decide +kernel⟩,
    ⟨0, queued (descOf 0x21 [5]) (withHist fun h => { h with pins := [⟨5, 1, [], [], true, 0, false⟩] }), descOf 0x21 [5], ⟨5, 1, [], [], true, 0, false⟩, by decide +kernel⟩,
    ⟨0, queued (descOf 0x21 [255]) hub, descOf 0x21 [255], by decide +kernel⟩⟩

/-- Inputs that meet the hypotheses of `Obligations.LanesTrain`, clause by clause. -/
theorem witness_LanesTrain :
    (∃ b, (32 ≤ byteAt b 0)) ∧
    (∃ b, ∃ (s : State), ∃ n, (byteAt b 0 = n) ∧ (n < 32) ∧ ((s.lane n).st = .equalise) ∧ (byteAt b 3 = (s.lane n).step)) ∧
    (∃ b, ∃ (s : State), ∃ n, (byteAt b 0 = n) ∧ (n < 32) ∧ ((s.lane n).st = .equalise) ∧ (byteAt b 3 = (s.lane n).step)) ∧
    (∃ b, ∃ (s : State), ∃ n, (byteAt b 0 = n) ∧ (n < 32) ∧ ((s.lane n).st = .test) ∧ (byteAt b 3 = (s.lane n).step)) ∧
    (∃ b, ∃ (s : State), ∃ n, (byteAt b 0 = n) ∧ (n < 32) ∧ ((s.lane n).st.training = true)) ∧
    (∃ n, ∃ (s : State), ((s.lane n).st = .switch) ∧ ((s.lane n).switchAt ≤ s.time.now)) ∧
    (∃ n, ∃ (s : State), ((s.lane n).st = .join)) ∧
    (∃ n, ∃ (s : State), (s.trainFails n = true) ∧ ((s.lane n).attempts + 1 < 4)) ∧
    (∃ n, ∃ (s : State), (s.trainFails n = true) ∧ ((s.lane n).attempts = 3)) ∧
    (∃ n, ∃ (s : State), ((s.lane n).st = .backoff) ∧ ((s.lane n).backoffFrom + 33554432 ≤ s.time.now)) ∧
    (∃ b, ∃ (s : State), ∃ n, (byteAt b 0 = n) ∧ (n < 32) ∧ ((s.lane n).st = .up) ∧ ((s.lane n).job ≠ .idle)) ∧
    (∃ b, ∃ (s : State), ∃ n, (byteAt b 0 = n) ∧ (n < 32) ∧ ((s.lane n).st = .up) ∧ ((s.lane n).job = .idle) ∧ ((s.lane n).taps = [])) ∧
    (∃ pt, ∃ syms, ∃ (s : State), ((∀ c, trainBody (trainChars (s.rx (portRx pt)).rd syms) = some c → (crc16 (c.take 13)).toNat ≠ le c 13 2))) ∧
    (∃ pt, ∃ syms, ∃ c, ∃ (s : State), (trainBody (trainChars (s.rx (portRx pt)).rd syms) = some c) ∧ ((crc16 (c.take 13)).toNat = le c 13 2) ∧ (byteAt c 1 % 4 = (s.lane (portLane pt)).step) ∧ (byteAt c 1 / 16 % 8 = 1) ∧ ((s.lane (portLane pt)).st = .equalise)) ∧
    (∃ n, ∃ (s : State), ∃ b, (n < 32) ∧ ((s.lane n).step < 4) ∧ (b = s.trainingSeq n (s.lane n).tseq 0)) ∧
    (∃ b, ∃ (s : State), ∃ n, (byteAt b 0 = n) ∧ (n < 32) ∧ ((s.lane n).st = .acquire) ∧ (byteAt b 3 = (s.lane n).step)) ∧
    (∃ b, ∃ (s : State), ∃ n, (byteAt b 0 = n) ∧ (n < 32) ∧ ((s.lane n).st = .acquire) ∧ (byteAt b 3 = (s.lane n).step)) ∧
    (∃ b, ∃ (s : State), ∃ n, (byteAt b 0 = n) ∧ (n < 32) ∧ ((s.lane n).st = .acquire) ∧ (byteAt b 3 ≠ (s.lane n).step)) ∧
    (∃ b, ∃ (s : State), ∃ n, (byteAt b 0 = n) ∧ (n < 32) ∧ ((s.lane n).st = .up)) ∧
    (∃ n, ∃ (s : State), (s.trainFails n = true) ∧ (4 ≤ (s.lane n).attempts)) ∧
    (∃ n, ∃ (s : State), ∃ (l : TxLane), (s.pending = []) ∧ (s.txLanes = [(n, l)]) ∧ (2 ≤ n) ∧ (n < 32) ∧ (l.st = .up) ∧ (l.job = .idle) ∧ (l.taps = []) ∧ (l.seqAt = 0) ∧ (s.brix.bypassOpen = false) ∧ (s.brix.role = .none) ∧ (s.brix.mirrorOut = []) ∧ (s.brix.armsGone = []) ∧ (s.dcTest.held = none) ∧ (s.fw.act = none) ∧ ((∀ c ∈ s.fw.chunkOps, c.toRead = false)) ∧ (s.tick.softResetDue = false)) :=
  ⟨⟨[32], by decide +kernel⟩,
    ⟨[31, 0, 0, 3], hub.setLane 31 { TxLane.init with st := .equalise, step := 3 }, 31, by decide +kernel⟩,
    ⟨[0, 0, 0, 0], laneIn 0 .equalise hub, 0, by decide +kernel⟩,
    ⟨[31], laneIn 31 .test hub, 31, by decide +kernel⟩,
    ⟨[31], laneIn 31 .acquire hub, 31, by decide +kernel⟩,
    ⟨31, laneIn 31 .switch hub, by decide +kernel⟩,
    ⟨31, laneIn 31 .join hub, by decide +kernel⟩,
    ⟨31, { (hub.setLane 31 { TxLane.init with st := .acquire, attempts := 2 }) with time := { hub.time with dlTicks := 100000000 } }, by decide +kernel⟩,
    ⟨31, { (hub.setLane 31 { TxLane.init with st := .acquire, attempts := 3 }) with time := { hub.time with dlTicks := 100000000 } }, by decide +kernel⟩,
    ⟨31, { laneIn 31 .backoff hub with time := { hub.time with now := 33554432 } }, by decide +kernel⟩,
    ⟨[31, 0, 5], hub.setLane 31 { TxLane.init with st := .up, job := .packet 0 0 }, 31, by decide +kernel⟩,
    ⟨[31, 0, 5], laneIn 31 .up hub, 31, by decide +kernel⟩,
    ⟨.p, [], hub, by decide +kernel⟩,
    ⟨.q, trainSyms, trainBytes, laneIn 33 .equalise hub, by decide +kernel⟩,
    ⟨31, laneIn 31 .equalise hub, (laneIn 31 .equalise hub).trainingSeq 31 0 0, by decide +kernel, by decide +kernel, rfl⟩,
    ⟨[31, 0, 5, 2], hub.setLane 31 { TxLane.init with st := .acquire, step := 2 }, 31, by decide +kernel⟩,
    ⟨[31, 0, 0, 3], hub.setLane 31 { TxLane.init with st := .acquire, step := 3 }, 31, by decide +kernel⟩,
    ⟨[31, 0, 0, 3], hub.setLane 31 { TxLane.init with st := .acquire, step := 2 }, 31, by decide +kernel⟩,
    ⟨[31], laneIn 31 .up hub, 31, by decide +kernel⟩,
    ⟨31, { (hub.setLane 31 { TxLane.init with st := .acquire, attempts := 15 }) with time := { hub.time with dlTicks := 100000000 } }, by decide +kernel⟩,
    ⟨2, laneIn 2 .up hub, { TxLane.init with st := .up }, by decide +kernel⟩⟩

/-- Inputs that meet the hypotheses of `Obligations.LanesGoDown`, clause by clause. -/
theorem witness_LanesGoDown :
    (∃ b, ∃ (s : State), ∃ n, (byteAt b 0 = n) ∧ (n < 32) ∧ ((s.lane n).st = .up)) ∧
    (∃ n, ∃ (s : State), ((s.lane n).st = .up)) ∧
    (∃ b, ∃ n, ∃ (s : State), ((s.lane n).st ≠ .up) ∧ (byteAt b 0 = n)) ∧
    (∃ n, ∃ (s : State), ((s.lane n).st ≠ .up) ∧ ((s.lane n).st.training = false)) ∧
    (∃ n, ∃ (s : State), ((s.lane n).st.training = true)) ∧
    (∃ p, ∃ (s : State), (Reaches s p Reg.lnkUlEn)) ∧
    (∃ dl, ∃ eye, ∃ req, ∃ (s : State), ∃ (u : State), (s.dlTapDue dl eye = true) ∧ (eye < 256) ∧ ((s.tryShare 0 0 fun v => v.placeMessage 0x22 (dlTapBody dl eye req)) = some u)) ∧
    (∃ dl, ∃ eye, ∃ (s : State), (s.dlTapEnds dl eye = true) ∧ (eye < 256)) ∧
    (∃ dl, ∃ eye, ∃ req, ∃ (s : State), ((s.dlTapDue dl eye = false ∨ (s.tryShare 0 0 fun v => v.placeMessage 0x22 (dlTapBody dl eye req)) = none)) ∧ (s.dlTapEnds dl eye = false)) :=
  ⟨⟨[31], laneIn 31 .up hub, 31, by decide +kernel⟩,
    ⟨33, laneIn 33 .up hub, by decide +kernel⟩,
    ⟨[31], 31, hub, by decide +kernel⟩,
    ⟨31, hub, by decide +kernel⟩,
    ⟨31, laneIn 31 .acquire hub, by decide +kernel⟩,
    ⟨.spi, hub, by decide +kernel⟩,
    ⟨.a, 49, 0, tapping, (tapping.tryShare 0 0 fun v => v.placeMessage 0x22 (dlTapBody .a 49 0)).getD tapping, by decide +kernel, by decide +kernel, rfl⟩,
    ⟨.a, 60, { tapping with dla := { tapping.dla with tapReq := true } }, by decide +kernel⟩,
    ⟨.b, 100, 0, tapping, Or.inl (by decide +kernel), by decide +kernel⟩⟩

/-- Inputs that meet the hypotheses of `Obligations.ReceiveLanesFollowTheirSignal`, clause by clause. -/
theorem witness_ReceiveLanesFollowTheirSignal :
    (∃ l, ∃ (s : State), ((s.rx l).stat = .los) ∧ (s.rxEnabled l = true)) ∧
    (∃ l, ∃ (s : State), (((s.rx l).stat ≠ .los ∨ s.rxEnabled l = false))) ∧
    (∃ l, ∃ (s : State), ((s.rx l).stat = .acquire) ∧ (64 ≤ (s.rx l).goodRun)) ∧
    (∃ l, ∃ (s : State), ∃ x, ((s.rx l).stat = .aligned) ∧ ((s.rx l).k281 = some x)) ∧
    (∃ l, ∃ (s : State), ((s.rx l).stat ≠ .los)) ∧
    (∃ lane, ∃ (s : State), (s.freqRef lane = false)) ∧
    (∃ l, ∃ k, ∃ p, ∃ (s : State), (s.freqRef (some l) = true) ∧ ((k < 34900 ∨ 45100 < k ∨ 20 < p))) ∧
    (∃ k, ∃ p, ∃ d, ∃ (s : State), (s.freqRef none = true) ∧ ((k < 34900 ∨ 45100 < k ∨ 20 < p ∨ (s.framing ≠ none ∧ 500 < d)))) ∧
    (∃ lane, ∃ k, ∃ p, ∃ d, ∃ (s : State), (s.freqRef lane = true) ∧ (34900 ≤ k) ∧ (k ≤ 45100) ∧ (p ≤ 20) ∧ ((d ≤ 500 ∨ lane ≠ none))) :=
  ⟨⟨.dla, hub.setReg Reg.lnkCtl 1, by decide +kernel⟩,
    ⟨.dla, dlUp hub, by decide +kernel⟩,
    ⟨.brixQ, { hub with brixQ := { RxLaneState.init with stat := .acquire, goodRun := 64 } }, by decide +kernel⟩,
    ⟨.brixP, { hub with brixP := { RxLaneState.init with stat := .aligned, k281 := some (9000, 0) } }, (9000, 0), by decide +kernel⟩,
    ⟨.brixP, { (laneIn 32 .up hub) with brixP := { RxLaneState.init with stat := .up }, brix := { hub.brix with bypassOpen := true } }, by decide +kernel⟩,
    ⟨some .dlb, hub, by decide +kernel⟩,
    ⟨.dla, 34899, 20, hub, by decide +kernel⟩,
    ⟨34899, 20, 500, hub.setReg Reg.timeCtl 3, by decide +kernel⟩,
    ⟨some .dla, 34900, 20, 501, hub, by decide +kernel⟩⟩

/-- Inputs that meet the hypotheses of `Obligations.PacketsCloseStartAndEnd`, clause by clause. -/
theorem witness_PacketsCloseStartAndEnd :
    (∃ c, ∃ (s : State), ∃ o, ((s.cls c).open_ = some o) ∧ (o.firstAt + s.fld1 Reg.splTmr 7 0 ≤ s.time.now)) ∧
    (∃ c, ∃ (s : State), ∃ o, ((s.cls c).open_ = some o) ∧ (s.time.now < o.firstAt + s.fld1 Reg.splTmr 7 0)) ∧
    (∃ n, ∃ (s : State), ∃ c, ∃ p, ∃ r, (2 ≤ n) ∧ (n < 32) ∧ ((s.lane n).st = .up) ∧ ((s.lane n).job = .idle) ∧ (bit (s.reg Reg.splCtl) 0 = true) ∧ (s.servo.frameDue = false) ∧ (s.clearOfLaunch n (p.payload.length + 14) = true) ∧ (s.nextClass = some c) ∧ (s.nextOf c = some (p, r))) ∧
    (∃ n, ∃ (s : State), ∃ c, ∃ q, ((s.lane n).job = .packet c q)) ∧
    (∃ n, ∃ (s : State), ∃ r, ∃ q, ((s.lane n).job = .launch r q)) ∧
    (∃ n, ∃ (s : State), ((s.lane n).job = .idle)) :=
  ⟨⟨7, hub.setCls 7 { SpoolClass.init with open_ := some ⟨[], 0, true, false⟩ }, ⟨[], 0, true, false⟩, by decide +kernel⟩,
    ⟨7, hub.setCls 7 { SpoolClass.init with open_ := some ⟨[], 10000, true, false⟩ }, ⟨[], 10000, true, false⟩, by decide +kernel⟩,
    ⟨31, sending { credited with queue := [packetOf 1 none] }, 0, packetOf 1 none, false, by decide +kernel⟩,
    ⟨31, hub.setLane 31 { TxLane.init with job := .packet 0 0 }, 0, 0, by decide +kernel⟩,
    ⟨31, hub.setLane 31 { TxLane.init with job := .launch 0 0 }, 0, 0, by decide +kernel⟩,
    ⟨31, hub, by decide +kernel⟩⟩

/-- Inputs that meet the hypotheses of `Obligations.AcknowledgementsMoveTheBenchmark`, clause by clause. -/
theorem witness_AcknowledgementsMoveTheBenchmark :
    (∃ c, (c < 8)) ∧
    (∃ b, ∃ (s : State), ∃ c, ∃ l, (splBodyOk true b = true) ∧ (byteAt b 1 % 2 = 1) ∧ (byteAt b 0 = c) ∧ ((s.cls c).lastSent = some l) ∧ (0 < sext 32 (le b 4 4 + 2 ^ 32 - (s.cls c).bm)) ∧ (sext 32 (le b 4 4 + 2 ^ 32 - l) ≤ 0)) ∧
    (∃ b, ∃ (s : State), ∃ c, (splBodyOk true b = true) ∧ (byteAt b 1 % 2 = 1) ∧ (byteAt b 0 = c) ∧ (sext 32 (le b 4 4 + 2 ^ 32 - (s.cls c).bm) ≤ 0)) ∧
    (∃ b, ∃ (s : State), ∃ c, (splBodyOk true b = true) ∧ (byteAt b 1 % 2 = 1) ∧ (byteAt b 0 = c) ∧ (0 < sext 32 (le b 4 4 + 2 ^ 32 - (s.cls c).bm)) ∧ ((∀ l, (s.cls c).lastSent = some l → 0 < sext 32 (le b 4 4 + 2 ^ 32 - l)))) :=
  ⟨⟨7, by decide +kernel⟩,
    ⟨[7, 1, 0, 0, 5], hub.setCls 7 { SpoolClass.init with lastSent := some 5 }, 7, 5, by decide +kernel⟩,
    ⟨[7, 1, 0, 0, 255, 255, 255, 255], hub, 7, by decide +kernel⟩,
    ⟨[7, 1, 0, 0, 5], hub.setCls 7 { SpoolClass.init with lastSent := some 4 }, 7, by decide +kernel, by decide +kernel, by decide +kernel, by decide +kernel, fun l h => by cases h; decide +kernel⟩⟩

/-- Inputs that meet the hypotheses of `Obligations.CreditLimitsAreRaisedOrWritten`, clause by clause. -/
theorem witness_CreditLimitsAreRaisedOrWritten :
    (∃ c, (c < 8)) ∧
    (∃ b, ∃ c, (splBodyOk true b = true) ∧ (byteAt b 1 = 2) ∧ (byteAt b 0 = c)) ∧
    (∃ b, ∃ c, (splBodyOk true b = true) ∧ (byteAt b 1 = 3) ∧ (byteAt b 0 = c)) ∧
    (∃ p, ∃ c, ∃ (s : State), (c < 8) ∧ (Reaches s p (Reg.splCredit c))) ∧
    (∃ n, ∃ (s : State), ∃ c, ∃ p, (2 ≤ n) ∧ (n < 32) ∧ ((s.lane n).st = .up) ∧ ((s.lane n).job = .idle) ∧ (bit (s.reg Reg.splCtl) 0 = true) ∧ (s.servo.frameDue = false) ∧ (s.clearOfLaunch n (p.payload.length + 14) = true) ∧ (s.nextClass = some c) ∧ (s.nextOf c = some (p, false))) :=
  ⟨⟨7, by decide +kernel⟩,
    ⟨[7, 2], 7, by decide +kernel⟩,
    ⟨[7, 3], 7, by decide +kernel⟩,
    ⟨.spi, 7, hub, by decide +kernel⟩,
    ⟨31, sending { credited with queue := [packetOf 1 none] }, 0, packetOf 1 none, by decide +kernel⟩⟩

/-- Inputs that meet the hypotheses of `Obligations.SharesAndResends`, clause by clause. -/
theorem witness_SharesAndResends :
    (∃ p, ∃ c, ∃ v, ∃ (s : State), (c < 8) ∧ (Reaches s p (Reg.splShare c)) ∧ (s.shareSum c v ≤ 128)) ∧
    (∃ p, ∃ c, ∃ v, ∃ (s : State), (c < 8) ∧ (Reaches s p (Reg.splShare c)) ∧ (128 < s.shareSum c v)) ∧
    (∃ b, (splBodyOk true b = false)) ∧
    (∃ b, (splBodyOk false b = false)) ∧
    (∃ b, ∃ (s : State), ∃ c, ∃ q, (splBodyOk false b = true) ∧ (byteAt b 0 = c) ∧ (le b 4 4 = q) ∧ (bit (s.reg Reg.splCtl) 1 = true) ∧ (q ∉ (s.cls c).resend) ∧ ((∃ p, p ∈ (s.cls c).held ∧ p.seq = q ∧ p.sentAt.isSome = true))) ∧
    (∃ b, ∃ (s : State), (splBodyOk false b = true) ∧ ((bit (s.reg Reg.splCtl) 1 = false ∨ le b 4 4 ∈ (s.cls (byteAt b 0)).resend ∨ ∀ p, p ∈ (s.cls (byteAt b 0)).held → p.seq = le b 4 4 → p.sentAt = none))) ∧
    (∃ c, ∃ q, ∃ (s : State), (s.ackDue c q = true)) ∧
    (∃ c, ∃ q, ∃ (s : State), (s.ackDue c q = false)) :=
  ⟨⟨.spi, 7, 1, hub, by decide +kernel⟩,
    ⟨.spi, 7, 129, hub, by decide +kernel⟩,
    ⟨[8], by decide +kernel⟩,
    ⟨[0, 1], by decide +kernel⟩,
    ⟨[0], sending { credited with held := [packetOf 1 (some 0)] }, 0, 0, by decide +kernel⟩,
    ⟨[0], sending credited, by decide +kernel, Or.inr (Or.inr (by decide +kernel))⟩,
    ⟨0, 0, { sending { credited with held := [packetOf 1 (some 0)] } with spool := { (sending { credited with held := [packetOf 1 (some 0)] }).spool with upTicks := 100000000 } }, by decide +kernel⟩,
    ⟨0, 0, hub, by decide +kernel⟩⟩

/-- Inputs that meet the hypotheses of `Obligations.RingsFetchReleaseAndSwitch`, clause by clause. -/
theorem witness_RingsFetchReleaseAndSwitch :
    (∃ (s : State), ∃ r, (s.fetchRing = some r) ∧ (s.e0Up = true)) ∧
    (∃ (s : State), (s.fetchRing = none)) ∧
    (∃ (s : State), (s.ctl.released = [])) ∧
    (∃ (s : State), ∃ c, ∃ rest, (s.ctl.released = c :: rest) ∧ (s.e0Up = true) ∧ (s.creditRoom 48 = true) ∧ ((State.tryShare { s with ctl := { s.ctl with released := rest } } 0 0 fun u => u.writeCompletion c).isSome = true)) ∧
    (∃ p, ∃ r, ∃ v, ∃ (s : State), (r < 32) ∧ (Reaches s p (Reg.ctlCfg r)) ∧ ((s.ring r).st = 0) ∧ (bit v 16 = true)) ∧
    (∃ p, ∃ r, ∃ v, ∃ (s : State), (r < 32) ∧ (Reaches s p (Reg.ctlCfg r)) ∧ ((s.ring r).st = 1) ∧ (bit v 16 = false) ∧ (NoAbortWaits s r)) ∧
    (∃ p, ∃ r, ∃ v, ∃ (s : State), (r < 32) ∧ (Reaches s p (Reg.ctlCfg r)) ∧ ((s.ring r).st = 1) ∧ (bit v 16 = true) ∧ (bit (s.reg (Reg.ctlCfg r)) 16 = true)) ∧
    (∃ p, ∃ r, ∃ v, ∃ (s : State), (r < 32) ∧ (Reaches s p (Reg.ctlCfg r)) ∧ ((s.ring r).st = 1) ∧ (bit v 16 = false) ∧ (s.ctl.aborts.Nodup)) :=
  ⟨⟨((hub.setReg Reg.ctlCtl 1).setCls 0 credited).setRing 31 { Ring.init with st := 1, tail := 1 }, 31, by decide +kernel⟩,
    ⟨hub, by decide +kernel⟩,
    ⟨hub, by decide +kernel⟩,
    ⟨{ sending credited with ctl := { hub.ctl with released := [completionOf] } }, completionOf, [], by decide +kernel⟩,
    ⟨.spi, 31, 0x10000, hub, by decide +kernel⟩,
    ⟨.spi, 31, 0, hub.setRing 31 { Ring.init with st := 1 }, by decide +kernel⟩,
    ⟨.spi, 31, 0x10000, (hub.setRing 31 { Ring.init with st := 1 }).setReg (Reg.ctlCfg 31) 0x10000, by decide +kernel⟩,
    ⟨.spi, 31, 0, aborting hub 31, by decide +kernel⟩⟩

/-- Inputs that meet the hypotheses of `Obligations.DescriptorsCompleteAsTheyShould`, clause by clause. -/
theorem witness_DescriptorsCompleteAsTheyShould :
    (∃ ring, ∃ (s : State), ∃ f, (Accepts s ring f 0x00)) ∧
    (∃ ring, ∃ (s : State), ∃ f, (s.acceptNext ring = some f) ∧ (opcodeAssigned f.opcode = false)) ∧
    (∃ ring, ∃ (s : State), ∃ f, (s.acceptNext ring = some f) ∧ (f.opcode = 0x00) ∧ (memNat (s.ring ring).marked f.sq = true)) ∧
    (∃ ring, ∃ (s : State), ∃ f, (s.acceptNext ring = some f) ∧ (f.opcode = 0x00) ∧ (memNat (s.ring ring).marked f.sq = false) ∧ (f.headerOk = false)) ∧
    (∃ ring, ∃ (s : State), ∃ f, (Accepts s ring f 0x02) ∧ (1 ≤ f.body 0 1) ∧ (f.body 0 1 ≤ 64) ∧ (f.body 16 4 % 8 = 0) ∧ (48 * f.body 0 1 ≤ f.body 16 4) ∧ (f.zero 1 7 = true) ∧ (f.zero 20 28 = true) ∧ (f.body 8 8 % 8 = 0) ∧ ((s.tryShare 7 0 fun t => t.acceptRun ring f fun f t => t.tieRead ring f).isSome = true)) ∧
    (∃ ring, ∃ (s : State), ∃ f, (Accepts s ring f 0x01) ∧ ((32 ≤ f.body 0 1 ∨ f.zero 1 1 = false ∨ f.zero 4 44 = false))) ∧
    (∃ ring, ∃ (s : State), ∃ f, (Accepts s ring f 0x01) ∧ (f.body 0 1 < 32) ∧ (f.zero 1 1 = true) ∧ (f.zero 4 44 = true) ∧ ((s.takeHead ring f).opcodeOf (f.body 0 1) (f.body 2 2) ≠ some 0x01) ∧ ((s.takeHead ring f).waitingDesc (f.body 0 1) (f.body 2 2) = true) ∧ ((s.takeHead ring f).unfetched (f.body 0 1) (f.body 2 2) = false)) ∧
    (∃ ring, ∃ (s : State), ∃ f, ∃ k, (Accepts s ring f 0x01) ∧ (f.body 0 1 < 32) ∧ (f.zero 1 1 = true) ∧ (f.zero 4 44 = true) ∧ ((s.takeHead ring f).opcodeOf (f.body 0 1) (f.body 2 2) ≠ some 0x01) ∧ ((s.takeHead ring f).waitingDesc (f.body 0 1) (f.body 2 2) = false) ∧ ((f.body 2 2, false) ∈ ((s.takeHead ring f).ring (f.body 0 1)).accepted) ∧ (s.stakes.find? (fun k => k.ring == f.body 0 1 && k.sq == f.body 2 2) = some k) ∧ ((∀ q, q ∈ s.dueStakes → ¬ (q.ring = f.body 0 1 ∧ q.sq = f.body 2 2)))) ∧
    (∃ ring, ∃ (s : State), ∃ f, (Accepts s ring f 0x01) ∧ (f.body 0 1 < 32) ∧ (f.zero 1 1 = true) ∧ (f.zero 4 44 = true) ∧ ((s.takeHead ring f).opcodeOf (f.body 0 1) (f.body 2 2) ≠ some 0x01) ∧ ((s.takeHead ring f).waitingDesc (f.body 0 1) (f.body 2 2) = false) ∧ ((f.body 2 2, false) ∉ ((s.takeHead ring f).ring (f.body 0 1)).accepted)) ∧
    (∃ ring, ∃ (s : State), ∃ f, (Accepts s ring f 0x01) ∧ (f.body 0 1 < 32) ∧ (f.zero 1 1 = true) ∧ (f.zero 4 44 = true) ∧ ((s.takeHead ring f).opcodeOf (f.body 0 1) (f.body 2 2) = some 0x01)) ∧
    (∃ ring, ∃ (s : State), ∃ f, ∃ k, (Accepts s ring f 0x01) ∧ (f.body 0 1 < 32) ∧ (f.zero 1 1 = true) ∧ (f.zero 4 44 = true) ∧ ((s.takeHead ring f).opcodeOf (f.body 0 1) (f.body 2 2) ≠ some 0x01) ∧ ((s.takeHead ring f).waitingDesc (f.body 0 1) (f.body 2 2) = false) ∧ ((f.body 2 2, false) ∈ ((s.takeHead ring f).ring (f.body 0 1)).accepted) ∧ ((f.body 0 1, f.body 2 2) ≠ (ring, f.sq)) ∧ ((∀ k ∈ s.stakes, ¬ (k.ring = f.body 0 1 ∧ k.sq = f.body 2 2))) ∧ (s.hist.recalls.find? (fun k => k.ring == f.body 0 1 && k.sq == f.body 2 2) = some k)) ∧
    (∃ ring, ∃ (s : State), ∃ f, (Accepts s ring f 0x01) ∧ (f.body 0 1 < 32) ∧ (f.zero 1 1 = true) ∧ (f.zero 4 44 = true) ∧ ((s.takeHead ring f).opcodeOf (f.body 0 1) (f.body 2 2) ≠ some 0x01) ∧ ((s.takeHead ring f).waitingDesc (f.body 0 1) (f.body 2 2) = true) ∧ ((s.takeHead ring f).unfetched (f.body 0 1) (f.body 2 2) = true)) :=
  ⟨⟨0, queued (descOf 0x00 []) (hub), descOf 0x00 [], by decide +kernel⟩,
    ⟨0, queued (descOf 0xFF []) (hub), descOf 0xFF [], by decide +kernel⟩,
    ⟨0, hub.setRing 0 { Ring.init with st := 1, fetched := [descOf 0 []], marked := [0] }, descOf 0 [], by decide +kernel⟩,
    ⟨0, queued ⟨0, [0, 4], 0⟩ hub, ⟨0, [0, 4], 0⟩, by decide +kernel⟩,
    ⟨0, queued (descOf 0x02 [64, 0, 0, 0, 0, 0, 0, 0, 8, 0, 0, 0, 0, 0, 0, 0, 0, 12]) (hub), descOf 0x02 [64, 0, 0, 0, 0, 0, 0, 0, 8, 0, 0, 0, 0, 0, 0, 0, 0, 12], by decide +kernel⟩,
    ⟨0, queued (descOf 0x01 [32]) (hub), descOf 0x01 [32], by decide +kernel⟩,
    ⟨0, queued (descOf 0x01 [1, 0, 5]) (hub.setRing 1 { Ring.init with st := 1, fetched := [⟨5, [], 1⟩] }), descOf 0x01 [1, 0, 5], by decide +kernel⟩,
    ⟨0, queued (descOf 0x01 [1, 0, 5]) ({ hub.setRing 1 { Ring.init with st := 1, accepted := [(5, false)] } with stakes := [{ stakeAt 5 [] with ring := 1, sq := 5, x := 200 }] }), descOf 0x01 [1, 0, 5], { stakeAt 5 [] with ring := 1, sq := 5, x := 200 }, by decide +kernel⟩,
    ⟨0, queued (descOf 0x01 [1, 0, 5]) (hub), descOf 0x01 [1, 0, 5], by decide +kernel⟩,
    ⟨0, queued (descOf 0x01 [1, 0, 5]) (hub.setRing 1 { Ring.init with st := 1, accepted := [(5, false)], recent := [(5, 1)] }), descOf 0x01 [1, 0, 5], by decide +kernel⟩,
    ⟨0, queued (descOf 0x01 [1, 0, 5]) ((withHist fun h => { h with recalls := [{ recallOf with ring := 1, sq := 5 }] }).setRing 1 { Ring.init with st := 1, accepted := [(5, false)] }), descOf 0x01 [1, 0, 5], { recallOf with ring := 1, sq := 5 }, by decide +kernel⟩,
    ⟨0, queued (descOf 0x01 [1, 0, 5]) (hub.setRing 1 { Ring.init with st := 1, tail := 6, fetch := 5 }), descOf 0x01 [1, 0, 5], by decide +kernel⟩⟩

/-- Inputs that meet the hypotheses of `Obligations.DoorbellsAndHostReads`, clause by clause. -/
theorem witness_DoorbellsAndHostReads :
    (∃ b, ∃ (s : State), ∃ r, (byteAt b 0 = r) ∧ (r < 32) ∧ (s.ringOn r = true) ∧ (sub16 (le b 1 2) (s.ring r).fetch ≤ 2 ^ s.sqLog2 r)) ∧
    (∃ b, ∃ (s : State), ∃ r, (byteAt b 0 = 128 + r) ∧ (r < 32) ∧ (s.ringOn r = true) ∧ (sub16 (le b 1 2) (s.ring r).head ≤ sub16 (s.ring r).write (s.ring r).head)) ∧
    (∃ b, ∃ (s : State), ((s.ringOn (byteAt b 0 % 32) = false ∨ byteAt b 0 / 32 % 4 ≠ 0 ∨ (byteAt b 0 < 128 ∧ 2 ^ s.sqLog2 (byteAt b 0 % 32) < sub16 (le b 1 2) (s.ring (byteAt b 0 % 32)).fetch) ∨ (128 ≤ byteAt b 0 ∧ sub16 (s.ring (byteAt b 0 % 32)).write (s.ring (byteAt b 0 % 32)).head < sub16 (le b 1 2) (s.ring (byteAt b 0 % 32)).head)))) ∧
    (∃ b, ∃ (s : State), ((∀ q, q ∈ s.ctl.reads → q.rtag ≠ le b 0 2))) ∧
    (∃ b, ∃ (s : State), ∃ q, (s.ctl.reads.find? (fun q => q.rtag == le b 0 2) = some q) ∧ (readDataOk b q.len = true) ∧ (byteAt b 2 = 0) ∧ ((q.piece (le b 4 4) (b.drop 8)).full = false)) ∧
    (∃ b, ∃ (s : State), ∃ q, ∃ r, ∃ first, ∃ n, ∃ ord, (s.ctl.reads.find? (fun q => q.rtag == le b 0 2) = some q) ∧ (readDataOk b q.len = true) ∧ (byteAt b 2 = 0) ∧ ((q.piece (le b 4 4) (b.drop 8)).full = true) ∧ (q.use = .fetch r first n ord) ∧ ((s.ring r).st = 1) ∧ (NoAbortWaits s r)) ∧
    (∃ b, ∃ (s : State), ∃ q, ∃ r, ∃ first, ∃ n, ∃ ord, (s.ctl.reads.find? (fun q => q.rtag == le b 0 2) = some q) ∧ (readDataOk b q.len = true) ∧ (byteAt b 2 = 1) ∧ (q.use = .fetch r first n ord) ∧ ((s.ring r).st = 1) ∧ (NoAbortWaits s r)) ∧
    (∃ g, ∃ (s : State), ∃ q, (s.ctl.reads.find? (fun q => q.rtag == g) = some q) ∧ (s.readLate q = true) ∧ (q.reissues < 3) ∧ (s.canRead = true)) ∧
    (∃ g, ∃ (s : State), ∃ q, ∃ r, ∃ first, ∃ n, ∃ ord, (s.ctl.reads.find? (fun q => q.rtag == g) = some q) ∧ (s.readLate q = true) ∧ (3 ≤ q.reissues) ∧ (q.use = .fetch r first n ord) ∧ ((s.ring r).st = 1) ∧ (NoAbortWaits s r)) ∧
    (∃ g, ∃ (s : State), ∃ q, (s.ctl.reads.find? (fun q => q.rtag == g) = some q) ∧ (s.readLate q = false)) ∧
    (∃ raw, (messageOf raw = none)) ∧
    (∃ b, ∃ (s : State), ∃ q, ∃ r, ∃ first, ∃ ord, ∃ a, (s.ctl.reads.find? (fun q => q.rtag == le b 0 2) = some q) ∧ (readDataOk b q.len = true) ∧ (byteAt b 2 = 0) ∧ ((q.piece (le b 4 4) (b.drop 8)).full = true) ∧ (q.use = .fetch r first 1 ord) ∧ ((s.ring r).st = 1) ∧ (s.ctl.aborts = [a]) ∧ (a.targetRing = r) ∧ (a.targetSq = first % 65536)) ∧
    (∃ b, ∃ (s : State), ∃ q, ∃ r, ∃ first, ∃ n, ∃ ord, ∃ a, (s.ctl.reads.find? (fun q => q.rtag == le b 0 2) = some q) ∧ (readDataOk b q.len = true) ∧ (byteAt b 2 = 1) ∧ (q.use = .fetch r first n ord) ∧ ((s.ring r).st = 1) ∧ (s.ctl.aborts = [a]) ∧ (a.targetRing = r) ∧ ((s.endRead q.rtag).inFetch r a.targetSq = false)) :=
  ⟨⟨[31, 16, 0], hub.setRing 31 { Ring.init with st := 1 }, 31, by decide +kernel⟩,
    ⟨[159, 1, 0], hub.setRing 31 { Ring.init with st := 1, write := 1 }, 31, by decide +kernel⟩,
    ⟨[31], hub, by decide +kernel⟩,
    ⟨[1], hub, by decide +kernel⟩,
    ⟨[7] ++ List.replicate 15 0, fetching fetchOf, fetchOf, by decide +kernel⟩,
    ⟨[7] ++ List.replicate 71 0, fetching fetchOf, fetchOf, 31, 0, 1, 0, by decide +kernel⟩,
    ⟨[7, 0, 1, 0, 0, 0, 0, 0], fetching fetchOf, fetchOf, 31, 0, 1, 0, by decide +kernel⟩,
    ⟨7, { fetching fetchOf with time := { hub.time with now := 100000000 } }, fetchOf, by decide +kernel⟩,
    ⟨7, { fetching { fetchOf with reissues := 3 } with time := { hub.time with now := 100000000 } }, { fetchOf with reissues := 3 }, 31, 0, 1, 0, by decide +kernel⟩,
    ⟨7, fetching { fetchOf with issuedAt := 10000 }, { fetchOf with issuedAt := 10000 }, by decide +kernel⟩,
    ⟨[], by decide +kernel⟩,
    ⟨[7] ++ List.replicate 71 0, aborting (fetching fetchOf) 31, fetchOf, 31, 0, 0, ⟨2, 9, 5, 31, 0⟩, by decide +kernel⟩,
    ⟨[7, 0, 1, 0, 0, 0, 0, 0], aborting (fetching fetchOf) 31, fetchOf, 31, 0, 1, 0, ⟨2, 9, 5, 31, 0⟩, by decide +kernel⟩⟩

/-- Inputs that meet the hypotheses of `Obligations.RegisterAccessesOnTheirPaths`, clause by clause. -/
theorem witness_RegisterAccessesOnTheirPaths :
    (∃ p, ∃ (s : State), (s.served p = false)) ∧
    (∃ p, ∃ a, ∃ (s : State), (s.served p = true) ∧ (p ≠ .stake) ∧ (regRow a = none)) ∧
    (∃ p, ∃ a, ∃ (s : State), ∃ r, (s.served p = true) ∧ (p ≠ .stake) ∧ (regRow a = some r) ∧ (a ≠ Reg.topUnlock) ∧ (s.pageLocked (a / 0x1000) = true)) ∧
    (∃ p, ∃ a, ∃ (s : State), ∃ r, (s.served p = true) ∧ (regRow a = some r) ∧ (r.kind = .plain) ∧ (a < 0x1000) ∧ (a ≠ Reg.topUnlock) ∧ (a ≠ Reg.topLock) ∧ (a ≠ Reg.topPathStat)) ∧
    (∃ p, ∃ a, ∃ (s : State), ∃ r, (Reaches s p a) ∧ (regRow a = some r) ∧ (r.kind = .loRW)) ∧
    (∃ a, ∃ (s : State), (s.served .spi = true) ∧ (spiAddrOk a = true)) ∧
    (∃ cmd, ∃ a, ∃ (s : State), (s.served .spi = true) ∧ ((cmd ≠ 0x02#8 ∨ spiAddrOk a = false))) ∧
    (∃ cmd, ∃ a, ∃ (s : State), (s.served .spi = true) ∧ ((cmd ≠ 0x03#8 ∨ spiAddrOk a = false))) ∧
    (∃ a, ∃ (s : State), (s.served .spi = true) ∧ (spiAddrOk a = true)) ∧
    (∃ p, ∃ (s : State), (Reaches s p Reg.timeCapCtl) ∧ (p ≠ .stake)) ∧
    (∃ (s : State), (Reaches s .stake Reg.timeCapCtl)) :=
  ⟨⟨.spi, State.reset, by decide +kernel⟩,
    ⟨.spi, 0xFFFFC, hub, by decide +kernel⟩,
    ⟨.spi, 0x1000, hub.setReg Reg.topLock 2, rowOf (0x1000), by decide +kernel⟩,
    ⟨.stake, Reg.topScratch, hub, rowOf (Reg.topScratch), by decide +kernel⟩,
    ⟨.spi, Reg.timeMerPeriod, hub, rowOf (Reg.timeMerPeriod), by decide +kernel⟩,
    ⟨0xFFFFC, hub, by decide +kernel⟩,
    ⟨2, 2, hub, by decide +kernel⟩,
    ⟨3, 0x100000, hub, by decide +kernel⟩,
    ⟨0, hub, by decide +kernel⟩,
    ⟨.spi, hub, by decide +kernel⟩,
    ⟨hub, by decide +kernel⟩⟩

/-- Inputs that meet the hypotheses of `Obligations.UnlockArmsAreAsStated`, clause by clause. -/
theorem witness_UnlockArmsAreAsStated :
    (∃ p, ∃ (s : State), (p ≠ .stake) ∧ (s.served p = true)) ∧
    (∃ p, ∃ (s : State), (p ≠ .stake) ∧ (s.served p = true) ∧ ((s.path p).armed = true)) ∧
    (∃ p, ∃ (s : State), (s.served p = true) ∧ ((s.path p).armed = false)) ∧
    (∃ p, ∃ a, ∃ (s : State), ∃ r, (p ≠ .stake) ∧ (s.served p = true) ∧ (regRow a = some r) ∧ (a ≠ Reg.topUnlock) ∧ (a ≠ Reg.topLock)) :=
  ⟨⟨.spi, hub, by decide +kernel⟩,
    ⟨.downlink, { hub with downlink := { PathState.init with armed := true } }, by decide +kernel⟩,
    ⟨.spi, hub, by decide +kernel⟩,
    ⟨.spi, Reg.topScratch, hub, rowOf (Reg.topScratch), by decide +kernel⟩⟩

/-- Inputs that meet the hypotheses of `Obligations.RepeatedAccessesAreNotPerformedAgain`, clause by clause. -/
theorem witness_RepeatedAccessesAreNotPerformedAgain :
    (∃ b, ∃ (s : State), ∃ k, (s.served .downlink = true) ∧ (8 ≤ b.length) ∧ (b.length ≤ 72) ∧ (le b 0 2 ≠ 0) ∧ (s.ctl.kept.find? (fun k => k.atag == le b 0 2 && k.crc == crc16 (messageBytes 0x03 b)) = some k)) ∧
    (∃ b, ∃ (s : State), (s.served .downlink = true) ∧ (8 ≤ b.length) ∧ (b.length ≤ 72) ∧ (le b 0 2 = 0)) ∧
    (∃ b, ∃ (s : State), (s.served .downlink = true) ∧ (8 ≤ b.length) ∧ (b.length ≤ 72) ∧ (le b 0 2 ≠ 0) ∧ ((∀ k, k ∈ s.ctl.kept → ¬ (k.atag = le b 0 2 ∧ k.crc = crc16 (messageBytes 0x03 b))))) ∧
    (∃ (s : State), ∃ r, ((s.tryShare 0 0 fun t => t.placeMessage 0x04 r).isSome = true)) ∧
    (∃ (s : State), ∃ r, ((s.tryShare 0 0 fun t => t.placeMessage 0x04 r) = none)) :=
  ⟨⟨[9, 0, 1, 1, 0, 0, 0, 0], { hub with ctl := { hub.ctl with kept := [⟨9, crc16 (messageBytes 0x03 [9, 0, 1, 1, 0, 0, 0, 0]), []⟩] } }, ⟨9, crc16 (messageBytes 0x03 [9, 0, 1, 1, 0, 0, 0, 0]), []⟩, by decide +kernel⟩,
    ⟨List.replicate 72 0, hub, by decide +kernel⟩,
    ⟨[9, 0, 1, 1, 0, 0, 0, 0], hub, by decide +kernel⟩,
    ⟨hub, [0], by decide +kernel⟩,
    ⟨(hub.setReg (Reg.splShare 0) 1).setCls 0 { SpoolClass.init with queue := List.replicate 64 (packetOf 1100 none) }, [0], by decide +kernel⟩⟩

/-- Inputs that meet the hypotheses of `Obligations.AccessRepliesAndDownlinkFrames`, clause by clause. -/
theorem witness_AccessRepliesAndDownlinkFrames :
    (∃ b, (regAccessOk b = false)) ∧
    (∃ b, ∃ (s : State), (s.served .downlink = true) ∧ (regAccessOk b = false) ∧ (8 ≤ b.length) ∧ (b.length ≤ 72) ∧ (le b 0 2 = 0)) ∧
    (∃ b, (regAccessOk b = true) ∧ (byteAt b 2 = 2) ∧ (byteAt b 3 = 1)) ∧
    (∃ b, (regAccessOk b = true) ∧ (byteAt b 2 = 1) ∧ (byteAt b 3 = 1)) ∧
    (∃ dl, ∃ (s : State), ((s.rx (dlLane dl)).stat = .los)) ∧
    (∃ dl, ∃ syms, ∃ frac, ∃ (s : State), ∃ f, (f = dlDecode (s.rx (dlLane dl)).rd syms frac) ∧ ((s.rx (dlLane dl)).stat = .acquire)) ∧
    (∃ dl, ∃ syms, ∃ frac, ∃ (s : State), ∃ f, (f = dlDecode (s.rx (dlLane dl)).rd syms frac) ∧ ((s.rx (dlLane dl)).stat = .up) ∧ (s.fcDl = some dl) ∧ ((s.ctlDl = some dl → s.ctl.frames = [] ∧ f.ctl.head? = some (some 0) ∧ f.comma ≠ .bad)) ∧ (fcPasses f.comma f.fc f.fchk f.fcErr = false) ∧ ((s.rx (dlLane dl)).badRun < 2) ∧ (((f.codeErrs :: (s.rx (dlLane dl)).errs).take 64).foldl (· + ·) 0 < 16) ∧ (f.comma ≠ .k281)) ∧
    (∃ dl, ∃ syms, ∃ frac, ∃ (s : State), ∃ f, ∃ x, (f = dlDecode (s.rx (dlLane dl)).rd syms frac) ∧ ((s.rx (dlLane dl)).stat = .up) ∧ (s.fcDl = some dl) ∧ ((s.ctlDl = some dl → s.ctl.frames = [] ∧ f.ctl.head? = some (some 0) ∧ f.comma ≠ .bad)) ∧ (fcPasses f.comma f.fc f.fchk f.fcErr = true) ∧ (f.fc ≠ 0) ∧ (f.comma = .k285) ∧ ((s.rx (dlLane dl)).masterX = some x) ∧ (x + 1 < s.n) ∧ (0 < s.fcAhead (x + 1)) ∧ (((f.codeErrs :: (s.rx (dlLane dl)).errs).take 64).foldl (· + ·) 0 < 16)) :=
  ⟨⟨[], by decide +kernel⟩,
    ⟨List.replicate 8 0, hub, by decide +kernel⟩,
    ⟨[0, 0, 2, 1, 0, 0, 0, 0, 0, 0, 0, 0], by decide +kernel⟩,
    ⟨[0, 0, 1, 1, 0xFC, 0xFF, 0x0F, 0], by decide +kernel⟩,
    ⟨.a, hub, by decide +kernel⟩,
    ⟨.a, frameOf k28_5 0 0, 0, { hub with dla := { RxLaneState.init with stat := .acquire } }, dlDecode false (frameOf k28_5 0 0) 0, rfl, by decide +kernel⟩,
    ⟨.a, frameOf k28_5 8 0, 0, dlUp hub, dlDecode false (frameOf k28_5 8 0) 0, rfl, by decide +kernel, by decide +kernel, fun _ => by decide +kernel, by decide +kernel⟩,
    ⟨.a, frameOf k28_5 8 14, 0, dlUp hub, dlDecode false (frameOf k28_5 8 14) 0, 200, rfl, by decide +kernel, by decide +kernel, fun _ => by decide +kernel, by decide +kernel⟩⟩

/-- Inputs that meet the hypotheses of `Obligations.RingFramesAndMessages`, clause by clause. -/
theorem witness_RingFramesAndMessages :
    (∃ pt, ∃ (s : State), ((s.rx (portRx pt)).stat = .los)) ∧
    (∃ pt, ∃ syms, ∃ frac, ∃ (s : State), ∃ f, (f = brixDecode (s.rx (portRx pt)).rd syms frac) ∧ ((s.rx (portRx pt)).stat = .acquire)) ∧
    (∃ pt, ∃ syms, ∃ frac, ∃ (s : State), ∃ f, ∃ x, (f = brixDecode (s.rx (portRx pt)).rd syms frac) ∧ ((s.rx (portRx pt)).stat = .up) ∧ (s.brix.bypassOpen = true) ∧ (s.isHead = false) ∧ (s.refSel < 2) ∧ (s.headRef = false) ∧ (f.comma = .k285) ∧ ((∀ c, c ∈ f.slots → c = .data 0)) ∧ ((s.rx (portRx pt)).slotBuf = none) ∧ ((s.rx (portRx pt)).masterX = some x) ∧ (x + 1 ≠ s.frameOrbit x) ∧ (((f.codeErrs :: (s.rx (portRx pt)).errs).take 64).foldl (· + ·) 0 < 16)) ∧
    (∃ b, ∃ (s : State), (s.routeHere b = false) ∧ (s.brix.bypassOpen = false)) ∧
    (∃ b, ∃ (s : State), (s.routeHere b = false) ∧ (s.brix.bypassOpen = true) ∧ (s.isHead = true)) ∧
    (∃ b, ∃ (s : State), (s.routeHere b = true) ∧ (s.brix.bypassOpen = false) ∧ (le b 2 2 ∈ s.brix.rseqs)) ∧
    (∃ (s : State), ∃ t4, (s.brix.bypassOpen = true) ∧ (s.arrivalStamp .p = some t4)) ∧
    (∃ (s : State), ∃ t4, (s.brix.bypassOpen = true) ∧ (s.arrivalStamp .q = some t4)) ∧
    (∃ pt, ∃ (s : State), ((s.brix.bypassOpen = false ∨ s.arrivalStamp pt = none))) ∧
    (∃ b, ∃ (s : State), ∃ p, (byteAt b 0 = p) ∧ (p < 8) ∧ (p ≠ s.position)) ∧
    (∃ b, (8 ≤ byteAt b 0)) ∧
    (∃ (s : State), ((s.engine 7).restarting = true)) ∧
    (∃ b, ∃ (s : State), ((s.engine 7).restarting = false) ∧ (s.brix.role = .none) ∧ (byteAt b 0 ≠ 7)) ∧
    (∃ b, ∃ (s : State), ∃ o, ((s.engine 7).restarting = false) ∧ (s.brix.role = .active) ∧ (byteAt b 0 = 2) ∧ (o ∈ s.brix.ops) ∧ (o.bseq = le (b.drop 16) 8 4)) ∧
    (∃ b, ∃ (s : State), ((s.engine 7).restarting = false) ∧ (s.brix.role = .standby) ∧ (s.brix.baseApplied = true) ∧ (byteAt b 0 = 1) ∧ (byteAt b 1 = 1) ∧ (le b 4 4 = (s.brix.mirrorVer + 1) % 2 ^ 32)) ∧
    (∃ b, ∃ (s : State), ((s.engine 7).restarting = false) ∧ (s.brix.role = .standby) ∧ (s.brix.baseApplied = true) ∧ (byteAt b 0 = 1) ∧ (byteAt b 1 ≠ 3) ∧ (le b 4 4 ≠ (s.brix.mirrorVer + 1) % 2 ^ 32) ∧ (le b 4 4 ≠ s.brix.mirrorVer)) ∧
    (∃ b, ∃ (s : State), ((s.engine 7).restarting = false) ∧ (s.brix.role = .standby) ∧ (byteAt b 0 = 4) ∧ (byteAt b 1 = 15)) ∧
    (∃ b, ∃ (s : State), ((s.engine 7).restarting = false) ∧ (byteAt b 0 = 7) ∧ (byteAt (b.drop 16) 0 < 32)) ∧
    (∃ b, ∃ (s : State), ((s.engine 7).restarting = false) ∧ (s.brix.role = .standby) ∧ (byteAt b 0 = 1) ∧ (byteAt b 1 = 3) ∧ ((s.brix.baseApplied = false ∨ (le b 4 4 ≠ (s.brix.mirrorVer + 1) % 2 ^ 32 ∧ le b 4 4 ≠ s.brix.mirrorVer))) ∧ ((∀ o ∈ s.brix.ops, o.bseq ≠ le (b.drop 16) 0 4)) ∧ (s.brix.waits = [])) ∧
    (∃ pt, ∃ (s : State), ∃ l, ((s.rx (portRx pt)).stat = .up) ∧ ((s.rx (portRx pt)).slotBuf = some l) ∧ (s.passesOn (s.rx (portRx pt)) = false)) ∧
    (∃ pt, ∃ (s : State), ∃ l, ((s.rx (portRx pt)).stat = .up) ∧ ((s.rx (portRx pt)).slotBuf = some l) ∧ (s.passesOn (s.rx (portRx pt)) = true) ∧ (l.head? ≠ some 0x42) ∧ (l.head? ≠ some 0x43)) :=
  ⟨⟨.p, hub, by decide +kernel⟩,
    ⟨.p, ringFrame, 0, { hub with brixP := { RxLaneState.init with stat := .acquire } }, brixDecode false ringFrame 0, rfl, by decide +kernel⟩,
    ⟨.p, ringFrame, 0, { laneIn 33 .up (ringHub 7 .none true) with brixP := { RxLaneState.init with stat := .up, masterX := some 0 } }, brixDecode false ringFrame 0, 0, rfl, by decide +kernel⟩,
    ⟨[0], hub, by decide +kernel⟩,
    ⟨[7], ringHub 0 .active true, by decide +kernel⟩,
    ⟨[7, 0, 9, 0], ringWith (ringHub 7 .none false) fun b => { b with rseqs := [9] }, by decide +kernel⟩,
    ⟨heard, ((heard.arrivalStamp .p).getD 0), by decide +kernel⟩,
    ⟨heard, ((heard.arrivalStamp .q).getD 0), by decide +kernel⟩,
    ⟨.p, hub, Or.inl (by decide +kernel)⟩,
    ⟨[7], hub, 7, by decide +kernel⟩,
    ⟨[8], by decide +kernel⟩,
    ⟨hub.setEngine 7 { Engine.init with running := true, restarting := true }, by decide +kernel⟩,
    ⟨[], hub, by decide +kernel⟩,
    ⟨[2], ringWith (ringHub 0 .active true) (fun b => { b with ops := [⟨0, 0, [], 0⟩] }), ⟨0, 0, [], 0⟩, by decide +kernel⟩,
    ⟨[1, 1, 0, 0, 1], ringWith (ringHub 1 .standby true) (fun b => { b with baseApplied := true }), by decide +kernel⟩,
    ⟨[1, 1, 0, 0, 2], ringWith (ringHub 1 .standby true) (fun b => { b with baseApplied := true }), by decide +kernel⟩,
    ⟨[4, 15], ringHub 1 .standby true, by decide +kernel⟩,
    ⟨[7], hub, by decide +kernel⟩,
    ⟨[1, 3, 0, 0, 2, 0, 0, 0, 0, 0, 0, 0, 0, 0, 0, 0, 9], ringWith (ringHub 1 .standby true) (fun b => { b with baseApplied := true }), by decide +kernel, by decide +kernel, by decide +kernel, by decide +kernel, Or.inr (by decide +kernel), by decide +kernel⟩,
    ⟨.p, { ringHub 7 .none false with brixP := { RxLaneState.init with stat := .up, slotBuf := some [1, 2], slotPass := some false } }, [1, 2], by decide +kernel⟩,
    ⟨.q, { ringHub 7 .none true with brixQ := { RxLaneState.init with stat := .up, slotBuf := some [1, 2], slotPass := some true } }, [1, 2], by decide +kernel⟩⟩

/-- Inputs that meet the hypotheses of `Obligations.BypassOpensAndHubsLeave`, clause by clause. -/
theorem witness_BypassOpensAndHubsLeave :
    (∃ (s : State), (s.atGap = true) ∧ (s.scan ≠ .extest) ∧ (s.brixState = 1) ∧ (s.ringMember = true) ∧ ((s.power.phase = .join ∨ s.power.phase = .run)) ∧ ((s.admitted = true ∨ s.noMap = true))) ∧
    (∃ (s : State), (s.atGap = false)) ∧
    (∃ p, ∃ (s : State), (Reaches s p Reg.brxLeave)) :=
  ⟨⟨({ ringHub 0 .none false with time := { hub.time with orbit := 1, cross := 2688 } }), by decide +kernel⟩,
    ⟨hub, by decide +kernel⟩,
    ⟨.spi, hub, by decide +kernel⟩⟩

/-- Inputs that meet the hypotheses of `Obligations.RolesChangeAsStated`, clause by clause. -/
theorem witness_RolesChangeAsStated :
    (∃ (s : State), (s.isHead = true) ∧ (s.brix.bypassOpen = true) ∧ (s.brix.role = .standby) ∧ (16 ≤ s.brixP.sinceAct) ∧ (16 ≤ s.brixQ.sinceAct)) ∧
    (∃ (s : State), ((s.brixP.sinceAct < 16 ∨ s.brixQ.sinceAct < 16))) ∧
    (∃ (s : State), (s.isHead = true) ∧ (s.position = 1) ∧ (s.brix.role = .active) ∧ ((16 ≤ s.brixP.actRun ∨ 16 ≤ s.brixQ.actRun)) ∧ (s.brix.splitAtGap = false)) ∧
    (∃ (s : State), ((s.engine 7).restarting = false)) ∧
    (∃ (s : State), ((s.engine 7).restarting = true)) ∧
    (∃ (s : State), ∃ (a : Arm), (s.armToDecide = some a) ∧ (s.brix.role = .active)) ∧
    (∃ (s : State), ((s.armToDecide = none ∨ s.brix.role ≠ .active))) ∧
    (∃ (s : State), ∃ (a : Arm), ∃ o, (s.brix.bypassOpen = true) ∧ (s.brix.role = .active) ∧ (s.brix.arms = [a]) ∧ (a.decided = some o) ∧ (a.told = false) ∧ (s.armDistance a ≤ 24)) ∧
    (∃ (s : State), ∃ (a : Arm), ((s.engine 7).restarting = false) ∧ (s.brix.partnerArms.any a.same = true) ∧ (s.standbySync = true) ∧ (s.newIsActive a.newActive = false)) ∧
    (∃ (s : State), ∃ (a : Arm), ((s.engine 7).restarting = false) ∧ (s.brix.partnerArms.any a.same = false)) ∧
    (∃ b, ∃ (s : State), ∃ (a : Arm), ((s.engine 7).restarting = false) ∧ (s.brix.arms.find? (fun a => le b 4 4 == a.bseq && le b 8 8 == a.target.toNat) = some a) ∧ (s.brix.role = .standby) ∧ (byteAt b 2 = 1)) ∧
    (∃ (s : State), ∃ k, ∃ (a : Arm), (s.dueStake 0x08 = some k) ∧ ((s.engine 7).restarting = false) ∧ (s.switchAt k = false) ∧ (s.brix.arms.find? (fun a => a.sid == k.sid) = some a) ∧ (a.decided = some (true, 0x00)) ∧ (s.brix.role ≠ .none)) ∧
    (∃ (s : State), ∃ k, ∃ (a : Arm), (s.dueStake 0x08 = some k) ∧ ((s.engine 7).restarting = false) ∧ (s.switchAt k = false) ∧ (s.brix.arms.find? (fun a => a.sid == k.sid) = some a) ∧ (a.decided = none) ∧ (s.brix.role ≠ .active)) ∧
    (∃ (s : State), ∃ k, (s.dueStake 0x08 = some k) ∧ (((s.engine 7).restarting = true ∨ s.switchAt k = true))) ∧
    (∃ b, ∃ (s : State), ∃ (a : Arm), ((s.engine 7).restarting = false) ∧ (s.brix.arms.find? (fun a => le b 4 4 == a.bseq && le b 8 8 == a.target.toNat) = some a) ∧ (s.brix.role = .standby) ∧ (byteAt b 2 ≠ 1)) ∧
    (∃ b, ∃ (s : State), ((s.engine 7).restarting = false) ∧ ((s.brix.role ≠ .standby ∨ s.brix.arms.find? (fun a => le b 4 4 == a.bseq && le b 8 8 == a.target.toNat) = none))) ∧
    (∃ (s : State), (s.past .fuse = true) ∧ (s.atGap = true) ∧ (s.time.gapStartAt ≠ some s.time.now) ∧ (s.dueStakes = []) ∧ ((s.time.fcQueue.any fun e => e.act == s.time.now && 8 ≤ e.fc.toNat) = false) ∧ (s.offlineOverdue = false) ∧ (s.brix.splitAtGap = true) ∧ (s.brix.swapAtGap = false) ∧ (s.brix.leaving = false) ∧ (s.brix.leaveOrbit = none)) :=
  ⟨⟨{ ringHub 0 .standby true with brixP := { RxLaneState.init with sinceAct := 16, actRun := 16 }, brixQ := { RxLaneState.init with sinceAct := 16 } }, by decide +kernel⟩,
    ⟨hub, by decide +kernel⟩,
    ⟨{ ringHub 1 .active true with brixP := { RxLaneState.init with sinceAct := 16, actRun := 16 }, brixQ := { RxLaneState.init with sinceAct := 16 } }, by decide +kernel⟩,
    ⟨hub, by decide +kernel⟩,
    ⟨hub.setEngine 7 { Engine.init with running := true, restarting := true }, by decide +kernel⟩,
    ⟨ringWith (ringHub 0 .active true) (fun b => { b with arms := [⟨7, 1, 5, 0x100064#64, none, false⟩] }), ⟨7, 1, 5, 0x100064#64, none, false⟩, by decide +kernel⟩,
    ⟨hub, Or.inl (by decide +kernel)⟩,
    ⟨ringWith (ringHub 0 .active true) (fun b => { b with arms := [⟨7, 1, 5, 0x100064#64, some (true, 0), false⟩] }), ⟨7, 1, 5, 0x100064#64, some (true, 0), false⟩, (true, 0), by decide +kernel⟩,
    ⟨ringWith (ringHub 0 .active true) (fun b => { b with partnerArms := [⟨7, 1, 5, 0x100064#64, none, false⟩], syncRun := 4 }), ⟨7, 1, 5, 0x100064#64, none, false⟩, by decide +kernel⟩,
    ⟨hub, ⟨7, 1, 5, 0x100064#64, none, false⟩, by decide +kernel⟩,
    ⟨[2, 1, 1, 0, 5, 0, 0, 0, 100, 0, 16, 0], ringWith (ringHub 1 .standby true) (fun b => { b with arms := [⟨7, 1, 5, 0x100064#64, none, false⟩] }), ⟨7, 1, 5, 0x100064#64, none, false⟩, by decide +kernel⟩,
    ⟨{ ringWith (ringHub 0 .active true) (fun b => { b with arms := [⟨7, 1, 5, 0x100064#64, some (true, 0), false⟩] }) with stakes := [stakeAt 8 []] }, stakeAt 8 [], ⟨7, 1, 5, 0x100064#64, some (true, 0), false⟩, by decide +kernel⟩,
    ⟨{ ringWith (ringHub 1 .standby true) (fun b => { b with arms := [⟨7, 1, 5, 0x100064#64, none, false⟩] }) with stakes := [stakeAt 8 []] }, stakeAt 8 [], ⟨7, 1, 5, 0x100064#64, none, false⟩, by decide +kernel⟩,
    ⟨(staked (stakeAt 8 [])).setEngine 7 { Engine.init with running := true, restarting := true }, stakeAt 8 [], by decide +kernel, Or.inl (by decide +kernel)⟩,
    ⟨[2, 1, 0, 0, 5, 0, 0, 0, 100, 0, 16, 0], ringWith (ringHub 1 .standby true) (fun b => { b with arms := [⟨7, 1, 5, 0x100064#64, none, false⟩] }), ⟨7, 1, 5, 0x100064#64, none, false⟩, by decide +kernel⟩,
    ⟨[], hub, by decide +kernel, Or.inl (by decide +kernel)⟩,
    ⟨{ ringWith (ringHub 1 .active true) (fun b => { b with splitAtGap := true }) with time := atGap.time }, by decide +kernel⟩⟩

/-- Inputs that meet the hypotheses of `Obligations.ClosureComparesDigests`, clause by clause. -/
theorem witness_ClosureComparesDigests :
    (∃ (s : State), ∃ k, ∃ e, ∃ l, (s.brix.ended = (k, e) :: l) ∧ (s.closes k = true) ∧ (s.engineUp 7 = true) ∧ (16 ≤ s.time.cross) ∧ (nextOrbit k = s.time.orbit) ∧ (s.brix.closureSent ≠ some k)) ∧
    (∃ (s : State), ((s.brix.ended = [] ∨ s.brix.ended.head?.map Prod.fst = s.brix.closureSent))) ∧
    (∃ (s : State), ((s.engine 7).restarting = true)) ∧
    (∃ b, ∃ (s : State), ∃ k, ∃ e, ((s.engine 7).restarting = false) ∧ (s.brix.digests.find? (fun p => p.1 == le b 0 8) = some (k, BitVec.ofNat 32 (le b 8 4), e)) ∧ (le b 0 8 ∉ s.brix.compared)) ∧
    (∃ b, ∃ (s : State), ∃ k, ∃ d, ∃ e, ((s.engine 7).restarting = false) ∧ (s.brix.digests.find? (fun p => p.1 == le b 0 8) = some (k, d, e)) ∧ (d ≠ BitVec.ofNat 32 (le b 8 4)) ∧ (le b 0 8 ∉ s.brix.compared)) ∧
    (∃ b, ∃ (s : State), ((s.engine 7).restarting = false) ∧ (s.brix.digests.find? (fun p => p.1 == le b 0 8) = none)) ∧
    (∃ (s : State), ∃ k, (s.missingOrbit = some k)) :=
  ⟨⟨ringWith (ringHub 0 .active true) (fun b => { b with ended := [(0, 0)], closeFrom := some 0 }), 0, 0, [], by decide +kernel⟩,
    ⟨hub, Or.inl (by decide +kernel)⟩,
    ⟨hub.setEngine 7 { Engine.init with running := true, restarting := true }, by decide +kernel⟩,
    ⟨[0, 0, 0, 0, 0, 0, 0, 0, 5], ringWith (ringHub 0 .active true) (fun b => { b with digests := [(0, 5, 0)] }), 0, 0, by decide +kernel⟩,
    ⟨[], ringWith (ringHub 0 .active true) (fun b => { b with digests := [(0, 5, 0)] }), 0, 5, 0, by decide +kernel⟩,
    ⟨[], hub, by decide +kernel⟩,
    ⟨{ ringWith (ringHub 0 .active true) (fun b => { b with digests := [(0, 5, 0)] }) with time := { hub.time with orbit := 2 } }, 0, by decide +kernel⟩⟩

/-- Inputs that meet the hypotheses of `Obligations.BoardOperationsOnTheHeads`, clause by clause. -/
theorem witness_BoardOperationsOnTheHeads :
    (∃ ring, ∃ (s : State), ∃ f, (Accepts s ring f 0x61) ∧ ((s.isHead = false ∨ f.body 0 4 = 0))) ∧
    (∃ ring, ∃ (s : State), ∃ f, (Accepts s ring f 0x62) ∧ ((s.isHead = false ∨ f.body 0 4 = 0))) ∧
    (∃ ring, ∃ (s : State), ∃ f, ∃ o, (Accepts s ring f 0x61) ∧ (s.isHead = true) ∧ (f.body 0 4 ≠ 0) ∧ (s.brix.ops.find? (fun o => o.bseq == f.body 0 4) = some o)) ∧
    (∃ ring, ∃ (s : State), ∃ f, (Accepts s ring f 0x61) ∧ (s.isHead = true) ∧ (f.body 0 4 ≠ 0) ∧ (s.brix.ops.find? (fun o => o.bseq == f.body 0 4) = none) ∧ (s.brix.role ≠ .active)) ∧
    (∃ ring, ∃ (s : State), ∃ f, (Accepts s ring f 0x61) ∧ (s.isHead = true) ∧ (f.body 0 4 ≠ 0) ∧ (s.brix.ops.find? (fun o => o.bseq == f.body 0 4) = none) ∧ (s.brix.role = .active) ∧ (f.zero 5 43 = true)) ∧
    (∃ ring, ∃ (s : State), ∃ f, (Accepts s ring f 0x62) ∧ (s.isHead = true) ∧ (f.body 0 4 ≠ 0) ∧ (s.brix.ops.find? (fun o => o.bseq == f.body 0 4) = none) ∧ (s.brix.role = .active) ∧ (f.body 4 1 < 8) ∧ (f.zero 5 3 = true) ∧ (f.zero 16 32 = true) ∧ (f.body 4 1 ≠ s.position) ∧ (f.body 4 1 < s.ringN) ∧ (s.posPresent (f.body 4 1) = true) ∧ ((∀ r, r ∈ s.brix.releases → r.bseq ≠ f.body 0 4)) ∧ (2 ≤ orbitDiff (f.body 8 8) s.time.orbit)) ∧
    (∃ ring, ∃ (s : State), ∃ f, (Accepts s ring f 0x62) ∧ (s.isHead = true) ∧ (f.body 0 4 ≠ 0) ∧ (s.brix.ops.find? (fun o => o.bseq == f.body 0 4) = none) ∧ (s.brix.role = .active) ∧ (f.body 4 1 < 8) ∧ (f.zero 5 3 = true) ∧ (f.zero 16 32 = true) ∧ (f.body 4 1 ≠ s.position) ∧ (f.body 4 1 < s.ringN) ∧ (s.posPresent (f.body 4 1) = true) ∧ ((∀ r, r ∈ s.brix.releases → r.bseq ≠ f.body 0 4)) ∧ (orbitDiff (f.body 8 8) s.time.orbit < 2)) ∧
    (∃ ring, ∃ (s : State), ∃ f, (Accepts s ring f 0x60) ∧ (s.isHead = true) ∧ (f.body 0 4 ≠ 0) ∧ (s.brix.ops.find? (fun o => o.bseq == f.body 0 4) = none) ∧ (s.brix.role = .active) ∧ (256 ≤ f.body 16 4) ∧ (f.body 16 4 % 8 = 0) ∧ (f.zero 4 4 = true) ∧ (f.zero 20 28 = true) ∧ (f.body 8 8 % 8 = 0) ∧ ((s.tryShare 7 0 fun t => t.acceptRun ring f fun f t => t.boardOp ring f).isSome = true)) :=
  ⟨⟨0, queued (descOf 0x61 [9, 0, 0, 0, 3]) (hub), descOf 0x61 [9, 0, 0, 0, 3], by decide +kernel⟩,
    ⟨0, queued (descOf 0x62 [0]) (ringHub 0 .active true), descOf 0x62 [0], by decide +kernel⟩,
    ⟨0, queued (descOf 0x61 [9, 0, 0, 0, 3]) (ringWith (ringHub 0 .active true) (fun b => { b with ops := [⟨9, 0, [], 0⟩] })), descOf 0x61 [9, 0, 0, 0, 3], ⟨9, 0, [], 0⟩, by decide +kernel⟩,
    ⟨0, queued (descOf 0x61 [9, 0, 0, 0, 3]) (ringHub 1 .standby true), descOf 0x61 [9, 0, 0, 0, 3], by decide +kernel⟩,
    ⟨0, queued (descOf 0x61 [9, 0, 0, 0, 3]) (ringHub 0 .active true), descOf 0x61 [9, 0, 0, 0, 3], by decide +kernel⟩,
    ⟨0, queued (descOf 0x62 [9, 0, 0, 0, 7, 0, 0, 0, 3]) (ringWith (ringHub 0 .active true) (fun b => { b with status := [(7, [], 1)] })), descOf 0x62 [9, 0, 0, 0, 7, 0, 0, 0, 3], by decide +kernel⟩,
    ⟨0, queued (descOf 0x62 [9, 0, 0, 0, 7, 0, 0, 0, 2]) (ringWith (ringHub 0 .active true) (fun b => { b with status := [(7, [], 1)] })), descOf 0x62 [9, 0, 0, 0, 7, 0, 0, 0, 2], by decide +kernel⟩,
    ⟨0, queued (descOf 0x60 [9, 0, 0, 0, 0, 0, 0, 0, 8, 0, 0, 0, 0, 0, 0, 0, 0, 1]) (ringHub 0 .active true), descOf 0x60 [9, 0, 0, 0, 0, 0, 0, 0, 8, 0, 0, 0, 0, 0, 0, 0, 0, 1], by decide +kernel⟩⟩

/-- Inputs that meet the hypotheses of `Obligations.WindowsWriteTheUserArea`, clause by clause. -/
theorem witness_WindowsWriteTheUserArea :
    (∃ p, ∃ w, ∃ (s : State), ∃ a, (Reaches s p (Reg.memWinPlain (w % 256))) ∧ (s.winByte p w = some a)) ∧
    (∃ p, ∃ w, ∃ (s : State), ∃ a, (Reaches s p (Reg.memWinSet (w % 256))) ∧ (s.winByte p w = some a)) ∧
    (∃ p, ∃ w, ∃ (s : State), ∃ a, (Reaches s p (Reg.memWinClr (w % 256))) ∧ (s.winByte p w = some a)) ∧
    (∃ p, ∃ w, ∃ (s : State), (Reaches s p (Reg.memWinPlain (w % 256))) ∧ (s.winByte p w = none)) :=
  ⟨⟨.spi, 255, { hub with spi := { PathState.init with winAddr := 127 } }, 131068, by decide +kernel⟩,
    ⟨.spi, 255, { hub with spi := { PathState.init with winAddr := 127 } }, 131068, by decide +kernel⟩,
    ⟨.spi, 255, { hub with spi := { PathState.init with winAddr := 127 } }, 131068, by decide +kernel⟩,
    ⟨.spi, 255, { hub with spi := { PathState.init with winAddr := 128 } }, by decide +kernel⟩⟩

/-- Inputs that meet the hypotheses of `Obligations.PatrolMarchesAndRepairs`, clause by clause. -/
theorem witness_PatrolMarchesAndRepairs :
    (∃ b, ∃ a, ∃ (s : State), (bit (s.reg Reg.memCtl) 3 = true) ∧ (s.past .memtest = true) ∧ (b < 76) ∧ (a < 65536) ∧ (s.inRetention b = false) ∧ (s.lineUnderTest b a = false)) ∧
    (∃ (s : State), (s.patrolDue = false)) ∧
    (∃ (s : State), (bit (s.reg Reg.memCtl) 3 = true) ∧ (s.past .memtest = true) ∧ (s.patrolDue = true)) ∧
    (∃ (s : State), ∃ m, (s.mem.march = some m) ∧ ((68 ≤ m.bank → (s.engine (m.bank - 68)).restarting = false)) ∧ (1 < m.left) ∧ (m.aborted = false)) ∧
    (∃ (s : State), ∃ m, ∃ r, ∃ q, ∃ tag, (s.mem.march = some m) ∧ ((68 ≤ m.bank → (s.engine (m.bank - 68)).restarting = false)) ∧ (m.left = 1) ∧ (m.aborted = false) ∧ (m.op = some (r, q, tag)) ∧ (m.failing = m.retired)) ∧
    (∃ ring, ∃ (s : State), ∃ f, (Accepts s ring f 0x50) ∧ (64 ≤ f.body 0 1) ∧ (f.body 0 1 ≤ 75) ∧ (f.body 1 1 ≤ 1) ∧ (f.zero 2 2 = true) ∧ (f.zero 12 36 = true) ∧ (f.body 8 4 ≠ 0) ∧ (f.body 4 4 + f.body 8 4 ≤ 8192)) ∧
    (∃ ring, ∃ (s : State), ∃ f, (Accepts s ring f 0x51) ∧ (1 ≤ f.body 4 2) ∧ (f.body 4 2 ≤ 1024) ∧ (32 * f.body 4 2 ≤ f.body 16 4) ∧ (f.zero 6 2 = true) ∧ (f.zero 20 28 = true) ∧ (f.body 8 8 % 8 = 0) ∧ ((s.tryShare 7 0 fun t => t.acceptRun ring f fun f t => t.memLogRead ring f).isSome = true)) ∧
    (∃ ring, ∃ (s : State), ∃ f, (Accepts s ring f 0x52) ∧ (f.body 0 1 = 1) ∧ (f.body 1 1 ≤ 63) ∧ (f.zero 2 2 = true) ∧ (f.zero 8 40 = true) ∧ ((∀ b, b < 64 → (s.bank b).repairs = []))) ∧
    (∃ ring, ∃ (s : State), ∃ f, (Accepts s ring f 0x52) ∧ (f.body 0 1 = 2) ∧ (f.zero 1 7 = true) ∧ (f.zero 16 32 = true) ∧ (s.mem.redirect = none)) :=
  ⟨⟨75, 65535, hub.setReg Reg.memCtl 8, by decide +kernel⟩,
    ⟨{ hub.setReg Reg.memCtl 8 with time := { hub.time with now := 1000000000 }, mem := { MemState.init with patrolAt := 999999999 } }, by decide +kernel⟩,
    ⟨{ hub.setReg Reg.memCtl 8 with time := { hub.time with now := 1000000000 }, mem := { MemState.init with patrolAt := 0 } }, by decide +kernel⟩,
    ⟨{ hub with mem := { MemState.init with march := some ⟨75, 0, 0, 2, 0, 2, 2, none, false⟩ } }, ⟨75, 0, 0, 2, 0, 2, 2, none, false⟩, by decide +kernel⟩,
    ⟨{ hub with mem := { MemState.init with march := some ⟨75, 0, 0, 1, 0, 2, 2, some (31, 5, 7), false⟩ } }, ⟨75, 0, 0, 1, 0, 2, 2, some (31, 5, 7), false⟩, 31, 5, 7, by decide +kernel⟩,
    ⟨0, queued (descOf 0x50 [75, 1, 0, 0, 0xFF, 0x1F, 0, 0, 1]) (hub), descOf 0x50 [75, 1, 0, 0, 0xFF, 0x1F, 0, 0, 1], by decide +kernel⟩,
    ⟨0, queued (descOf 0x51 [0, 0, 0, 0, 0, 4, 0, 0, 8, 0, 0, 0, 0, 0, 0, 0, 0, 128]) (hub), descOf 0x51 [0, 0, 0, 0, 0, 4, 0, 0, 8, 0, 0, 0, 0, 0, 0, 0, 0, 128], by decide +kernel⟩,
    ⟨0, queued (descOf 0x52 [1, 63]) (hub), descOf 0x52 [1, 63], by decide +kernel⟩,
    ⟨0, queued (descOf 0x52 [2, 0, 0, 0, 0, 0, 0, 0, 255]) (hub), descOf 0x52 [2, 0, 0, 0, 0, 0, 0, 0, 255], by decide +kernel⟩⟩

/-- Inputs that meet the hypotheses of `Obligations.DoseClearsAndEngineRestarts`, clause by clause. -/
theorem witness_DoseClearsAndEngineRestarts :
    (∃ (s : State), ((s.engineUp 6 = false ∨ s.doseDue = false ∨ s.e6Waits = true))) ∧
    (∃ d, ∃ fl, ∃ (s : State), (s.engineUp 6 = true) ∧ (s.doseDue = true) ∧ (s.e6Waits = false) ∧ (d < 2 ^ 24) ∧ (fl < 2 ^ 24)) ∧
    (∃ p, ∃ (s : State), (Reaches s p Reg.memCtl)) ∧
    (∃ p, ∃ v, ∃ (s : State), (Reaches s p Reg.memCtl) ∧ (bit v 9 = false)) ∧
    (∃ k, ∃ (s : State), (k < 8) ∧ ((s.engine k).running = true) ∧ ((s.fw.probation = false ∨ (s.engine k).recent.length < 2))) ∧
    (∃ k, ∃ (s : State), ∃ x, ∃ y, (k < 8) ∧ ((s.engine k).running = true) ∧ (s.fw.probation = true) ∧ ((s.engine k).recent = [x, y]) ∧ (s.time.now ≤ y + s.seconds 1)) ∧
    (∃ k, ∃ a, ∃ b, ∃ (s : State), (k < 8) ∧ ((s.engine k).running = true) ∧ ((s.engine k).restarting = true) ∧ (k ≠ 0) ∧ (k ≠ 5) ∧ ((k = 6 → s.fw.chunkOps = [])) ∧ ((s.fw.probation = false ∨ s.switchLate k = false ∧ (a = true ∧ (s.engine k).newestValid = true ∨ b = true ∧ (s.engine k).olderValid = true))) ∧ ((k = 7 → s.brix.heldIn = [] ∧ s.brix.mirrorOut = []))) ∧
    (∃ k, ∃ c, ∃ a, ∃ b, ∃ (s : State), (k < 8) ∧ ((s.engine k).running = true) ∧ ((s.engine k).restarting = true) ∧ (s.fw.probation = true) ∧ (((a && (s.engine k).newestValid || b && (s.engine k).olderValid) = false ∨ c = false ∨ s.switchLate k = true))) ∧
    (∃ (s : State), ((s.engine 7).running = true) ∧ ((s.engine 7).restarting = true) ∧ (s.fw.probation = false)) ∧
    (∃ a, ∃ b, ∃ (s : State), ((s.engine 0).running = true) ∧ ((s.engine 0).restarting = true) ∧ ((s.fw.probation = false ∨ s.switchLate 0 = false ∧ (a = true ∧ (s.engine 0).newestValid = true ∨ b = true ∧ (s.engine 0).olderValid = true)))) ∧
    (∃ a, ∃ b, ∃ (s : State), ((s.engine 5).running = true) ∧ ((s.engine 5).restarting = true) ∧ ((s.fw.probation = false ∨ s.switchLate 5 = false ∧ (a = true ∧ (s.engine 5).newestValid = true ∨ b = true ∧ (s.engine 5).olderValid = true)))) ∧
    (∃ k, ∃ (s : State), (k < 8) ∧ ((s.engine k).running = true) ∧ ((s.engine k).restarting = true) ∧ (k ≠ 0) ∧ (k ≠ 5) ∧ (s.fw.probation = false)) ∧
    (∃ i, ∃ (s : State), (i < 47) ∧ (s.power.phase ≠ .rails)) ∧
    (∃ (s : State), (s.fw.probation = false)) :=
  ⟨⟨hub.setEngine 6 Engine.init, Or.inl (by decide +kernel)⟩,
    ⟨0xFFFFFF, 0xFFFFFF, hub, by decide +kernel⟩,
    ⟨.spi, hub, by decide +kernel⟩,
    ⟨.spi, 0, hub, by decide +kernel⟩,
    ⟨7, hub, by decide +kernel, by decide +kernel, Or.inl (by decide +kernel)⟩,
    ⟨7, { hub.setEngine 7 { Engine.init with running := true, recent := [9000, 8000] } with fw := { (hub.setEngine 7 { Engine.init with running := true, recent := [9000, 8000] }).fw with probation := true, runSlot := 2 } }, 9000, 8000, by decide +kernel⟩,
    ⟨7, true, true, hub.setEngine 7 { Engine.init with running := true, restarting := true }, by decide +kernel, by decide +kernel, by decide +kernel, by decide +kernel, by decide +kernel, by decide, Or.inl (by decide +kernel), fun _ => by decide +kernel⟩,
    ⟨7, true, false, false, { hub.setEngine 7 { Engine.init with running := true, restarting := true, ckpt0 := true, ckpt1 := true } with fw := { (hub.setEngine 7 { Engine.init with running := true, restarting := true, ckpt0 := true, ckpt1 := true }).fw with probation := true, runSlot := 2 } }, by decide +kernel, by decide +kernel, by decide +kernel, by decide +kernel, Or.inl (by decide +kernel)⟩,
    ⟨hub.setEngine 7 { Engine.init with running := true, restarting := true }, by decide +kernel⟩,
    ⟨true, false, hub.setEngine 0 { Engine.init with running := true, restarting := true }, by decide +kernel, by decide +kernel, Or.inl (by decide +kernel)⟩,
    ⟨false, false, hub.setEngine 5 { Engine.init with running := true, restarting := true }, by decide +kernel, by decide +kernel, Or.inl (by decide +kernel)⟩,
    ⟨7, hub.setEngine 7 { Engine.init with running := true, restarting := true, ckpt0 := true, ckpt1 := true }, by decide +kernel⟩,
    ⟨46, hub, by decide +kernel⟩,
    ⟨hub, by decide +kernel⟩⟩

/-- Inputs that meet the hypotheses of `Obligations.UpdateSessions`, clause by clause. -/
theorem witness_UpdateSessions :
    (∃ ring, ∃ (s : State), ∃ f, (Accepts s ring f 0x40) ∧ (s.engineUp 6 = true) ∧ (fwOpenBad f = none) ∧ (s.prepOf ring f.sq = none) ∧ (s.readFree = true)) ∧
    (∃ ring, ∃ (s : State), ∃ f, ∃ p, ∃ h, (Accepts s ring f 0x40) ∧ (s.engineUp 6 = true) ∧ (fwOpenBad f = none) ∧ (s.prepOf ring f.sq = some p) ∧ (p.mask = some h) ∧ (s.fw.runSlot ≠ f.body 0 1) ∧ (s.fw.act = none) ∧ ((s.slot (f.body 0 1)).st ≠ .open_)) ∧
    (∃ ring, ∃ (s : State), ∃ f, (Accepts s ring f 0x41) ∧ (s.engineUp 6 = true) ∧ (s.readFree = true) ∧ (f.zero 1 3 = true) ∧ (f.zero 20 28 = true) ∧ (s.sessionOpen (f.body 0 1) = true) ∧ (f.body 4 4 % 4096 = 0) ∧ (f.body 4 4 < hdrPayload (s.slot (f.body 0 1)).header) ∧ (f.body 16 4 = min 4096 (hdrPayload (s.slot (f.body 0 1)).header - f.body 4 4)) ∧ (f.body 8 8 % 8 = 0)) ∧
    (∃ ring, ∃ (s : State), ∃ f, (Accepts s ring f 0x42) ∧ (s.engineUp 6 = true) ∧ (s.chunkBusy (f.body 0 1) = false) ∧ (f.zero 1 47 = true) ∧ (s.sessionOpen (f.body 0 1) = true)) ∧
    (∃ ring, ∃ (s : State), ∃ f, (Accepts s ring f 0x43) ∧ (s.engineUp 6 = true) ∧ (s.chunkBusy (f.body 0 1) = false) ∧ (f.zero 1 47 = true) ∧ (s.sessionOpen (f.body 0 1) = true)) ∧
    (∃ i, ∃ (s : State), (s.sessionOpen i = true) ∧ (s.chunkBusy i = false) ∧ ((s.slot i).since + s.seconds 1 ≤ s.time.now)) :=
  ⟨⟨0, queued (descOf 0x40 [2, 0, 0, 0, 0, 0, 0, 0, 8]) (hub), descOf 0x40 [2, 0, 0, 0, 0, 0, 0, 0, 8], by decide +kernel⟩,
    ⟨0, { queued (descOf 0x40 [2, 0, 0, 0, 0, 0, 0, 0, 8]) hub with ctl := { (queued (descOf 0x40 [2, 0, 0, 0, 0, 0, 0, 0, 8]) hub).ctl with preps := [⟨0, 0, none, some imageHeader, false⟩] } }, descOf 0x40 [2, 0, 0, 0, 0, 0, 0, 0, 8], ⟨0, 0, none, some imageHeader, false⟩, imageHeader, by decide +kernel⟩,
    ⟨0, queued (descOf 0x41 [2, 0, 0, 0, 0, 0, 0, 0, 8, 0, 0, 0, 0, 0, 0, 0, 0, 1]) (updating), descOf 0x41 [2, 0, 0, 0, 0, 0, 0, 0, 8, 0, 0, 0, 0, 0, 0, 0, 0, 1], by decide +kernel⟩,
    ⟨0, queued (descOf 0x42 [2]) updating, descOf 0x42 [2], by decide +kernel⟩,
    ⟨0, queued (descOf 0x43 [2]) (updating), descOf 0x43 [2], by decide +kernel⟩,
    ⟨2, { updating with time := { hub.time with now := 1000000000000 } }, by decide +kernel⟩⟩

/-- Inputs that meet the hypotheses of `Obligations.UpdateSessionsComplete`, clause by clause. -/
theorem witness_UpdateSessionsComplete :
    (∃ ring, ∃ (s : State), ∃ f, ∃ st, (Accepts s ring f 0x40) ∧ (s.engineUp 6 = true) ∧ (fwOpenBad f = some st)) ∧
    (∃ ring, ∃ (s : State), ∃ f, ∃ p, (Accepts s ring f 0x40) ∧ (s.engineUp 6 = true) ∧ (fwOpenBad f = none) ∧ (s.prepOf ring f.sq = some p)) ∧
    (∃ ring, ∃ (s : State), ∃ f, (Accepts s ring f 0x41) ∧ (s.engineUp 6 = true) ∧ (s.readFree = true)) ∧
    (∃ ring, ∃ (s : State), ∃ f, (Accepts s ring f 0x42) ∧ (s.engineUp 6 = true) ∧ (s.chunkBusy (f.body 0 1) = false)) ∧
    (∃ ring, ∃ (s : State), ∃ f, (Accepts s ring f 0x43) ∧ (s.engineUp 6 = true) ∧ (s.chunkBusy (f.body 0 1) = false)) :=
  ⟨⟨0, queued (descOf 0x40 [3]) (hub), descOf 0x40 [3], Status.badDescriptor, by decide +kernel⟩,
    ⟨0, { queued (descOf 0x40 [2, 0, 0, 0, 0, 0, 0, 0, 8]) updating with ctl := { (queued (descOf 0x40 [2, 0, 0, 0, 0, 0, 0, 0, 8]) updating).ctl with preps := [⟨0, 0, none, some imageHeader, false⟩] } }, descOf 0x40 [2, 0, 0, 0, 0, 0, 0, 0, 8], ⟨0, 0, none, some imageHeader, false⟩, by decide +kernel⟩,
    ⟨0, queued (descOf 0x41 [2, 0, 0, 0, 0, 0, 0, 0, 8, 0, 0, 0, 0, 0, 0, 0, 0, 1]) (updating), descOf 0x41 [2, 0, 0, 0, 0, 0, 0, 0, 8, 0, 0, 0, 0, 0, 0, 0, 0, 1], by decide +kernel⟩,
    ⟨0, queued (descOf 0x42 [2]) updating, descOf 0x42 [2], by decide +kernel⟩,
    ⟨0, queued (descOf 0x43 [2]) (updating), descOf 0x43 [2], by decide +kernel⟩⟩

/-- Inputs that meet the hypotheses of `Obligations.FirmwareSwitches`, clause by clause. -/
theorem witness_FirmwareSwitches :
    (∃ (r : StoreRead), ∃ (s : State), ∃ a, ∃ k, (s.fw.act = some a) ∧ (s.stakes.find? (fun q => q.sid == a.sid) = some k) ∧ (a.copied = false) ∧ (s.engineUp 6 = true) ∧ (r.bad = none)) ∧
    (∃ (s : State), ∃ a, ∃ k, (s.fw.act = some a) ∧ (s.stakes.find? (fun q => q.sid == a.sid) = some k) ∧ (a.copied = false) ∧ (s.engineUp 6 = true)) ∧
    (∃ (s : State), ∃ k, ∃ a, (s.dueStake 0x07 = some k) ∧ (s.fw.act = some a) ∧ (a.copied = true)) ∧
    (∃ (s : State), ∃ k, (s.dueStake 0x07 = some k) ∧ ((∀ a, s.fw.act = some a → a.copied = false))) ∧
    (∃ k, ∃ (s : State), (k < 8) ∧ (s.fw.probation = true) ∧ (s.switchLate k = true)) ∧
    (∃ ring, ∃ (s : State), ∃ f, (Accepts s ring f 0x44) ∧ (s.engineUp 6 = true) ∧ (f.zero 0 48 = true) ∧ (s.fw.probation = true)) ∧
    (∃ ring, ∃ (s : State), ∃ f, (Accepts s ring f 0x44) ∧ (s.engineUp 6 = true) ∧ (f.zero 0 48 = true) ∧ (s.fw.probation = false) ∧ ((s.fw.fellBack || s.fw.bootFellBack) = true)) ∧
    (∃ ring, ∃ (s : State), ∃ f, (Accepts s ring f 0x44) ∧ (s.engineUp 6 = true) ∧ (f.zero 0 48 = true) ∧ (s.fw.probation = false) ∧ ((s.fw.fellBack || s.fw.bootFellBack) = false)) ∧
    (∃ (s : State), ((s.fw.probation = false ∨ ∀ j, j < 8 → s.switchLate j = false))) :=
  ⟨⟨goodRead, { hub with fw := { hub.fw with act := some ⟨7, 0, false⟩ }, stakes := [{ stakeAt 7 [] with x := 200 }] }, ⟨7, 0, false⟩, { stakeAt 7 [] with x := 200 }, by decide +kernel⟩,
    ⟨{ hub with fw := { hub.fw with act := some ⟨7, 0, false⟩ }, stakes := [{ stakeAt 7 [] with x := 200 }] }, ⟨7, 0, false⟩, { stakeAt 7 [] with x := 200 }, by decide +kernel⟩,
    ⟨{ hub with fw := { hub.fw with act := some ⟨7, 0, true⟩ }, stakes := [stakeAt 7 []] }, stakeAt 7 [], ⟨7, 0, true⟩, by decide +kernel⟩,
    ⟨staked (stakeAt 7 []), stakeAt 7 [], by decide +kernel, fun a h => by cases h⟩,
    ⟨7, { hub.setEngine 7 { Engine.init with running := true, restarting := true, switchedAt := some 0 } with fw := { (hub.setEngine 7 { Engine.init with running := true, restarting := true, switchedAt := some 0 }).fw with probation := true, runSlot := 2 } }, by decide +kernel⟩,
    ⟨0, queued (descOf 0x44 []) ({ hub with fw := { hub.fw with probation := true } }), descOf 0x44 [], by decide +kernel⟩,
    ⟨0, queued (descOf 0x44 []) ({ hub with fw := { hub.fw with fellBack := true } }), descOf 0x44 [], by decide +kernel⟩,
    ⟨0, queued (descOf 0x44 []) (hub), descOf 0x44 [], by decide +kernel⟩,
    ⟨hub, Or.inl (by decide +kernel)⟩⟩

/-- Inputs that meet the hypotheses of `Obligations.CertificatesAndAttestation`, clause by clause. -/
theorem witness_CertificatesAndAttestation :
    (∃ ring, ∃ (s : State), ∃ f, (Accepts s ring f 0x48) ∧ (s.engineUp 6 = true) ∧ (2064 ≤ f.body 16 4) ∧ (f.zero 0 8 = true) ∧ (f.zero 20 28 = true) ∧ (f.body 8 8 % 8 = 0) ∧ ((s.tryShare 7 0 fun t => t.acceptRun ring f fun f t => t.certRead ring f).isSome = true)) ∧
    (∃ ring, ∃ (s : State), ∃ f, (Accepts s ring f 0x49) ∧ (s.engineUp 6 = true) ∧ (256 ≤ f.body 24 4) ∧ (f.zero 28 20 = true) ∧ (f.body 16 8 % 8 = 0) ∧ ((s.tryShare 7 0 fun t => t.acceptRun ring f fun f t => t.attest ring f).isSome = true)) :=
  ⟨⟨0, queued certDesc hub, certDesc, by decide +kernel, by decide +kernel, by decide +kernel, by decide +kernel, by decide +kernel, by decide +kernel, certRead_fits⟩,
    ⟨0, queued attestDesc hub, attestDesc, by decide +kernel, by decide +kernel, by decide +kernel, by decide +kernel, by decide +kernel, attest_fits⟩⟩

/-- Inputs that meet the hypotheses of `Obligations.CertificatesAndAttestationComplete`, clause by clause. -/
theorem witness_CertificatesAndAttestationComplete :
    (∃ ring, ∃ (s : State), ∃ f, (Accepts s ring f 0x48) ∧ (s.engineUp 6 = true) ∧ (2064 ≤ f.body 16 4) ∧ (f.zero 0 8 = true) ∧ (f.zero 20 28 = true) ∧ (f.body 8 8 % 8 = 0) ∧ (s.classWaits 7 = false) ∧ ((s.cls 7).occOpen + 4096 ≤ s.shareBytes 7)) ∧
    (∃ ring, ∃ (s : State), ∃ f, (Accepts s ring f 0x49) ∧ (s.engineUp 6 = true) ∧ (256 ≤ f.body 24 4) ∧ (f.zero 28 20 = true) ∧ (f.body 16 8 % 8 = 0) ∧ (s.classWaits 7 = false) ∧ ((s.cls 7).occOpen + 4096 ≤ s.shareBytes 7)) :=
  ⟨⟨0, queued certDesc hub, certDesc, by decide +kernel⟩,
    ⟨0, queued attestDesc hub, attestDesc, by decide +kernel⟩⟩

/-- Inputs that meet the hypotheses of `Obligations.SurveyScansAndCalibrates`, clause by clause. -/
theorem witness_SurveyScansAndCalibrates :
    (∃ p, ∃ v, ∃ (s : State), ∃ i, (Reaches s p Reg.srvCtl) ∧ (bit v 0 = true) ∧ (bit (s.reg Reg.srvCtl) 0 = true) ∧ (bit v 9 = false) ∧ (bit v 10 = false) ∧ ((bits v 2 1 = 1 ∨ bits v 2 1 = 2)) ∧ (s.survey.selfReq = false) ∧ (s.survey.job = .idle) ∧ (s.survey.passRun = false) ∧ (s.e5Up = true) ∧ (i < s.srvLen) ∧ (s.ptEn (bits (s.reg (Reg.srvScanEntry i)) 5 0) = true)) ∧
    (∃ p, ∃ v, ∃ (s : State), (Reaches s p Reg.srvCtl) ∧ (bit v 0 = true) ∧ (bit (s.reg Reg.srvCtl) 0 = true) ∧ (bit v 9 = false) ∧ (bit v 10 = false) ∧ ((bits v 2 1 = 1 ∨ bits v 2 1 = 2)) ∧ ((s.survey.passRun = true ∨ s.survey.job ≠ .idle ∨ s.e5Up = false)) ∧ ((s.survey.job = .idle → s.survey.selfReq = false ∨ s.survey.reads ≠ []))) ∧
    (∃ p, ∃ v, ∃ (s : State), (Reaches s p Reg.srvCtl) ∧ (bit v 0 = true) ∧ (bit (s.reg Reg.srvCtl) 0 = true) ∧ (bit v 8 = false) ∧ (bit v 10 = false) ∧ (s.survey.selfReq = false)) ∧
    (∃ p, ∃ v, ∃ (s : State), (Reaches s p Reg.srvCtl) ∧ (bit v 0 = true) ∧ (bit (s.reg Reg.srvCtl) 0 = true) ∧ (bit v 8 = false) ∧ (bit v 9 = false)) ∧
    (∃ (s : State), (s.survey.scanOn = true) ∧ (s.survey.period ≠ 0) ∧ (s.survey.periodDue = false) ∧ (s.survey.stopReq = false) ∧ (s.survey.startAt + s.survey.period * 10 ^ 6 ≤ s.time.plumb) ∧ (s.survey.passRun = true)) ∧
    (∃ (s : State), ∃ i, (s.survey.scanOn = true) ∧ (s.survey.period ≠ 0) ∧ (s.survey.periodDue = false) ∧ (s.survey.stopReq = false) ∧ (s.survey.startAt + s.survey.period * 10 ^ 6 ≤ s.time.plumb) ∧ (s.survey.passRun = false) ∧ (s.survey.job = .idle) ∧ (s.e5Up = true) ∧ ((s.srvMode = 1 ∨ s.srvMode = 2)) ∧ (bit (s.reg Reg.srvCtl) 0 = true) ∧ (i < s.srvLen) ∧ (s.ptEn (bits (s.reg (Reg.srvScanEntry i)) 5 0) = true)) ∧
    (∃ (s : State), (s.time.plumb < s.survey.startAt + s.survey.period * 10 ^ 6)) ∧
    (∃ (s : State), (bit (s.reg Reg.srvCtl) 0 = true) ∧ (s.selfcalAllowed = true) ∧ (s.survey.job ≠ .selfCal)) ∧
    (∃ (s : State), (s.survey.job = .selfCal) ∧ (s.survey.reads = []) ∧ (s.survey.selfReq = false) ∧ (s.survey.passRun = false) ∧ (s.survey.passDue = false)) ∧
    (∃ (s : State), ∃ i, (s.survey.job = .selfCal) ∧ (s.survey.reads = []) ∧ (s.survey.selfReq = false) ∧ (s.survey.passRun = false) ∧ (s.survey.passDue = true) ∧ (s.e5Up = true) ∧ ((s.srvMode = 1 ∨ s.srvMode = 2)) ∧ (bit (s.reg Reg.srvCtl) 0 = true) ∧ (i < s.srvLen) ∧ (s.ptEn (bits (s.reg (Reg.srvScanEntry i)) 5 0) = true)) ∧
    (∃ (s : State), ∃ r, ∃ l, (s.survey.job = .selfCal) ∧ (s.survey.reads = r :: l)) ∧
    (∃ a, ∃ b, ∃ (s : State), ∃ p, ∃ r, (s.survey.job = .settling p r) ∧ ((s.icode = 0 → (bit s.survey.ptB 19 && b) = false)) ∧ ((s.icode ≠ 0 → a = false))) ∧
    (∃ a, ∃ b, ∃ (s : State), ∃ p, (s.survey.job = .settling p false) ∧ (p < 64) ∧ ((s.icode = 0 → bit s.survey.ptB 19 = true ∧ b = true)) ∧ ((s.icode ≠ 0 → a = true))) ∧
    (∃ p, ∃ v, ∃ (s : State), (Reaches s p Reg.srvCtl) ∧ (bit v 0 = true) ∧ (bit (s.reg Reg.srvCtl) 0 = true) ∧ (bit v 9 = false) ∧ (bit v 10 = false) ∧ ((bits v 2 1 = 1 ∨ bits v 2 1 = 2)) ∧ (s.survey.selfReq = false) ∧ (s.survey.job = .idle) ∧ (s.survey.passRun = false) ∧ (s.e5Up = true) ∧ ((∀ i, i < s.srvLen → s.ptEn (bits (s.reg (Reg.srvScanEntry i)) 5 0) = false))) ∧
    (∃ p, ∃ v, ∃ (s : State), (Reaches s p Reg.srvCtl) ∧ (bit v 0 = false) ∧ (bit (s.reg Reg.srvCtl) 0 = true) ∧ (s.readingNow = false) ∧ (s.survey.reads = [])) ∧
    (∃ (s : State), ∃ p, (s.survey.job = .converting p false) ∧ (s.survey.mode = 1) ∧ (s.survey.reads = []) ∧ (s.survey.selfReq = false) ∧ (s.survey.passRun = true) ∧ (s.survey.stopReq = true) ∧ (s.survey.passDue = false)) ∧
    (∃ (s : State), ∃ p, ∃ i, (s.survey.job = .converting p false) ∧ (s.survey.mode = 1) ∧ (s.survey.reads = []) ∧ (s.survey.selfReq = false) ∧ (s.survey.passRun = true) ∧ (s.survey.stopReq = true) ∧ (s.survey.passDue = true) ∧ (s.e5Up = true) ∧ ((s.srvMode = 1 ∨ s.srvMode = 2)) ∧ (bit (s.reg Reg.srvCtl) 0 = true) ∧ (i < s.srvLen) ∧ (s.ptEn (bits (s.reg (Reg.srvScanEntry i)) 5 0) = true)) :=
  ⟨⟨.spi, 0x103, surveying id, 0, by decide +kernel⟩,
    ⟨.spi, 0x103, surveying fun v => { v with passRun := true, job := .selfCal }, by decide +kernel⟩,
    ⟨.spi, 0x201, surveying id, by decide +kernel⟩,
    ⟨.spi, 0x401, surveying id, by decide +kernel⟩,
    ⟨{ (surveying fun v => { v with scanOn := true, period := 1, passRun := true }) with time := { hub.time with plumb := 1000000 } }, by decide +kernel⟩,
    ⟨{ (surveying fun v => { v with scanOn := true, period := 1, passRun := false }) with time := { hub.time with plumb := 1000000 } }, 0, by decide +kernel⟩,
    ⟨surveying fun v => { v with period := 1 }, by decide +kernel⟩,
    ⟨surveying fun v => { v with selfReq := true }, by decide +kernel⟩,
    ⟨surveying fun v => { v with job := .selfCal }, by decide +kernel⟩,
    ⟨surveying fun v => { v with job := .selfCal, passDue := true }, 0, by decide +kernel⟩,
    ⟨surveying fun v => { v with job := .selfCal, reads := [⟨0, 0, 0, 63, false, false⟩] }, ⟨0, 0, 0, 63, false, false⟩, [], by decide +kernel⟩,
    ⟨false, false, surveying fun v => { v with job := .settling 63 true }, 63, true, by decide +kernel⟩,
    ⟨false, true, surveying fun v => { v with job := .settling 63 false, ptB := 0x80000 }, 63, by decide +kernel⟩,
    ⟨.spi, 0x103, surveying id |> fun s => (upto 0 64).foldl (fun t k => t.setReg (Reg.srvPtA k) 0) s, by decide +kernel⟩,
    ⟨.spi, 0x202, surveying fun v => { v with passRun := true, scanOn := true, job := .settling 63 false }, by decide +kernel⟩,
    ⟨surveying fun v => { v with job := .converting 63 false, mode := 1, passRun := true, stopReq := true }, 63, by decide +kernel⟩,
    ⟨surveying fun v => { v with job := .converting 63 false, mode := 1, passRun := true, stopReq := true, passDue := true }, 63, 0, by decide +kernel⟩⟩

/-- Inputs that meet the hypotheses of `Obligations.SurveyPostsItsResults`, clause by clause. -/
theorem witness_SurveyPostsItsResults :
    (∃ (s : State), ∃ p, (s.survey.job = .converting p false) ∧ (s.survey.mode = 1) ∧ (p < 64)) ∧
    (∃ (s : State), ∃ p, ∃ r, ∃ l, (s.survey.job = .converting p true) ∧ (s.survey.reads = r :: l) ∧ (p < 64)) ∧
    (∃ (s : State), ∃ p, (s.survey.job = .converting p false) ∧ (s.survey.mode = 2) ∧ (0 < s.survey.settleOuts) ∧ (s.survey.reads = []) ∧ (s.survey.selfReq = false) ∧ (s.survey.stopReq = false)) ∧
    (∃ (s : State), ∃ p, (s.survey.job = .converting p false) ∧ (s.survey.mode = 2) ∧ (s.survey.settleOuts = 0) ∧ (p < 64)) ∧
    (∃ (s : State), ∃ p, (s.survey.job = .converting p false) ∧ (s.icode ≠ 0) ∧ (p < 64)) ∧
    (∃ (s : State), ∃ p, ∃ r, (s.survey.job = .converting p r) ∧ (s.icode = 0)) ∧
    (∃ k, ∃ a, ∃ (s : State), (k < 64) ∧ ((s.srvRes k).postedAt.isSome = true) ∧ (s.fld Reg.srvStale 15 0 < a) ∧ (a ≤ s.srvAge k)) ∧
    (∃ k, ∃ (s : State), ((s.srvRes k).postedAt = none ∨ s.srvAge k ≤ s.fld Reg.srvStale 15 0)) ∧
    (∃ ring, ∃ (s : State), ∃ f, (Accepts s ring f 0x30) ∧ (f.body 0 1 < 64) ∧ (f.body 1 1 < 2) ∧ (f.zero 2 46 = true) ∧ (s.ptEn (f.body 0 1) = true) ∧ (s.survey.reads.length < 8)) ∧
    (∃ ring, ∃ (s : State), ∃ f, (Accepts s ring f 0x30) ∧ ((64 ≤ f.body 0 1 ∨ 2 ≤ f.body 1 1 ∨ f.zero 2 46 = false))) ∧
    (∃ ring, ∃ (s : State), ∃ f, (Accepts s ring f 0x30) ∧ (f.body 0 1 < 64) ∧ (f.body 1 1 < 2) ∧ (f.zero 2 46 = true) ∧ ((s.ptEn (f.body 0 1) = false ∨ 8 ≤ s.survey.reads.length))) ∧
    (∃ ring, ∃ (s : State), ∃ f, (Accepts s ring f 0x31) ∧ (1024 ≤ f.body 16 4) ∧ (f.zero 0 8 = true) ∧ (f.zero 20 28 = true) ∧ (f.body 8 8 % 8 = 0) ∧ ((s.tryShare 7 0 fun t => t.acceptRun ring f fun f t => t.srvDump ring f).isSome = true)) ∧
    (∃ a, ∃ b, ∃ (s : State), ∃ p, ∃ r, ∃ l, (s.survey.job = .settling p true) ∧ (s.survey.reads = r :: l) ∧ (p < 64) ∧ ((s.icode = 0 → bit s.survey.ptB 19 = true ∧ b = true)) ∧ ((s.icode ≠ 0 → a = true))) ∧
    (∃ (s : State), ∃ p, ∃ r, ∃ l, (s.survey.job = .converting p true) ∧ (s.survey.reads = r :: l) ∧ (s.icode ≠ 0) ∧ (p < 64)) :=
  ⟨⟨surveying fun v => { v with job := .converting 63 false, mode := 1 }, 63, by decide +kernel⟩,
    ⟨surveying fun v => { v with job := .converting 63 true, mode := 1, reads := [⟨0, 0, 0, 63, false, false⟩] }, 63, ⟨0, 0, 0, 63, false, false⟩, [], by decide +kernel⟩,
    ⟨surveying fun v => { v with job := .converting 63 false, mode := 2, settleOuts := 1 }, 63, by decide +kernel⟩,
    ⟨surveying fun v => { v with job := .converting 63 false, mode := 2 }, 63, by decide +kernel⟩,
    ⟨surveying fun v => { v with job := .converting 63 false, mode := 1, ptA := 0x02000000 }, 63, by decide +kernel⟩,
    ⟨surveying fun v => { v with job := .converting 63 false, mode := 1 }, 63, false, by decide +kernel⟩,
    ⟨63, 65535, hub.setSrvRes 63 { SrvRes.init with postedAt := some 0 } |> fun s => { s with time := { s.time with plumb := 70000000000 } }, by decide +kernel⟩,
    ⟨0, hub, by decide +kernel⟩,
    ⟨0, queued (descOf 0x30 [0, 1]) (surveying id), descOf 0x30 [0, 1], by decide +kernel⟩,
    ⟨0, queued (descOf 0x30 [64]) (hub), descOf 0x30 [64], by decide +kernel⟩,
    ⟨0, queued (descOf 0x30 [63]) (hub), descOf 0x30 [63], by decide +kernel⟩,
    ⟨0, queued (descOf 0x31 [0, 0, 0, 0, 0, 0, 0, 0, 8, 0, 0, 0, 0, 0, 0, 0, 0, 4]) (hub), descOf 0x31 [0, 0, 0, 0, 0, 0, 0, 0, 8, 0, 0, 0, 0, 0, 0, 0, 0, 4], by decide +kernel⟩,
    ⟨false, true, surveying fun v => { v with job := .settling 63 true, ptB := 0x80000, reads := [⟨0, 0, 0, 63, false, false⟩] }, 63, ⟨0, 0, 0, 63, false, false⟩, [], by decide +kernel⟩,
    ⟨surveying fun v => { v with job := .converting 63 true, mode := 1, ptA := 0x02000000, reads := [⟨0, 0, 0, 63, false, false⟩] }, 63, ⟨0, 0, 0, 63, false, false⟩, [], by decide +kernel⟩⟩

/-- Inputs that meet the hypotheses of `Obligations.SurveyPinsFollowTheConversion`, clause by clause. -/
theorem witness_SurveyPinsFollowTheConversion :
    (∃ (s : State), (s.srvOn = false)) ∧
    (∃ (s : State), ∃ k, (s.srvOn = true) ∧ (bits s.survey.ptA 5 0 = k)) ∧
    (∃ (s : State), (s.srvOn = true)) ∧
    (∃ (s : State), ∃ k, ∃ m, ∃ i, ((s.svPin k).drive = some (m, i))) ∧
    (∃ (s : State), ∃ k, ∃ m, (s.sourceOn k ≠ none) ∧ (s.sourceOn m ≠ none)) ∧
    (∃ (s : State), ∃ k, ((s.svPin k).test = true)) ∧
    (∃ (s : State), (s.power.phase = .rails)) ∧
    (∃ (s : State), (s.power.phase = .run)) ∧
    (∃ (s : State), (s.brix.bypassOpen = false)) :=
  ⟨⟨hub, by decide +kernel⟩,
    ⟨surveying fun v => { v with job := .settling 63 true, ptA := 0x020A0A3F }, 63, by decide +kernel⟩,
    ⟨surveying fun v => { v with job := .settling 63 true, ptA := 0x020A0A3F }, by decide +kernel⟩,
    ⟨surveying fun v => { v with job := .settling 63 true, ptA := 0x020A0A3F }, 10, 0, 1, by decide +kernel⟩,
    ⟨surveying fun v => { v with job := .settling 63 true, ptA := 0x020A0A3F }, 0, 0, by decide +kernel⟩,
    ⟨surveying fun v => { v with job := .settling 63 true, ptA := 0x3F, ptB := 0x80000 }, 63, by decide +kernel⟩,
    ⟨State.reset, by decide +kernel⟩,
    ⟨hub, by decide +kernel⟩,
    ⟨hub, by decide +kernel⟩⟩

/-! ### Commands that are not well formed -/

theorem test_wf_refuses_indices :
    [ Instr.railLowEvt 9 0, .memtestEnd [(76, 0)] none, .sampleContainer 512 0 0 0 0 0 false (0, false),
      .sampleContainer 0 4 0 0 0 0 false (0, false), .stretch ⟨47, 0⟩, .stretchRestore 47, .longSag 47 0 0,
      .orbitStart [(32, 0)] [], .orbitStart [] [512], .offlinePhaseEnd 32 (List.replicate 16 0), .pedestalUpdate 512,
      .sliceFault 0 33, .injectionReturn 4, .feChWrite .spi 512 0, .stake 32, .stnStagedWrite .spi 2 0,
      .filterApplication 32, .filterOutput 512, .detectorWindowEnd 32, .macroWake 32, .contourTest 8, .contourViolation 8,
      .indexEntryWrite 0 32, .recall 32, .unpin 32 ].all (fun c => !c.wf) = true := by decide +kernel

theorem test_wf_refuses_lanes_classes_and_rings :
    [ Instr.laneSwitch 34, .laneJoin 34, .trainTimeout 34, .backoffEnd 34, .uplinkFault 34, .dlTap .a 101 0, .packetFlush 8,
      .packetStart 1 none, .packetStart 32 none, .packetSent 1, .ackTimeout 8 0, .splCreditWrite .spi 8 0,
      .splShareWrite .spi 8 0, .readTimeout 65536, .descriptorReserved 32, .nop 32, .abort 32, .tieRead 32,
      .ringCfgWrite .spi 32 0, .ringTable 32, .ringAdmit 32, .ringRelease 32, .resultStale 64 0, .srvRead 32, .srvDump 32,
      .memWinPlain .spi 256 0, .memWinSet .spi 256 0, .memWinClr .spi 256 0, .patrolRead 76 0 0 .clean,
      .patrolRead 0 65536 0 .clean, .memMarch 32, .memLogRead 32, .memRepair 32, .lockstepMismatch (.cores 8), .lockstepMismatch (.voter 47),
      .engineResume ⟨8, true⟩ true true, .fwOpen 32, .fwChunk 32, .fwClose ⟨32, ⟨[], none⟩⟩, .fwDrop 32, .sessionAbandon 0, .sessionAbandon 3,
      .fwCommit 32, .certRead 32, .attest 32, .registerWrite .spi 2 0, .registerWrite .spi 0x100000 0, .spiRead 2 0 0,
      .spiWrite 3 0 [] 0, .spiWrite 2 0 [] 32 ].all (fun c => !c.wf) = true := by decide +kernel

theorem test_wf_refuses_bodies :
    [ Instr.timeReport [], .roleArm [], .decide [], .taps (List.replicate 16 0), .taps [], .ready (List.replicate 16 0),
      .restart (List.replicate 16 0), .brixTrainingSequence .p [], .laneDown [], .splAck [], .splNak [],
      .controlMessageDrop (List.replicate 271 none), .doorbell [], .readData [], .readData (List.replicate 265 0),
      .regAccessRead (List.replicate 8 0), .regAccessWrite (List.replicate 8 0), .ringRoute [], .hopReport .p [],
      .hubStatus .p [], .ringMap .p [], .mirror [], .closure [], .brixFrame .p ⟨ringFrame.drop 1, 0⟩,
      .brixTrainingSequence .q (trainSyms.drop 1), .downlinkFrame .a ⟨(frameOf k28_5 0 0).drop 1, 0⟩ ].all (fun c => !c.wf) = true := by decide +kernel

theorem test_wf_admits :
    [ Instr.syncX, .stake 31, .filterOutput 511, .laneDown (List.replicate 16 0), .taps (0 :: 1 :: List.replicate 14 0),
      .regAccessRead [0, 0, 1, 1, 0, 0, 0, 0], .downlinkFrame .a ⟨frameOf k28_5 0 0, 0⟩, .brixFrame .p ⟨ringFrame, 0⟩, .sliceFault 31 32 ].all Instr.wf = true := by
  decide +kernel

/-! ### The manual's own worked examples -/

/-- 11 Table 11.1: the check value of HCHK for "123456789". -/
theorem test_crc8_check_value : crc8 [0x31, 0x32, 0x33, 0x34, 0x35, 0x36, 0x37, 0x38, 0x39] = 0xF4 := by decide +kernel

/-- 05, "merging a ×1 sample". -/
theorem test_merge_x1 : ({ Channel.init with ped1 := .init 4096 }).merge 2 881 = (40000, false) := by decide +kernel

/-- 05, "energy and time from a three-tap filter": E = 40,000 and t = 4,900 ps. -/
theorem test_energy_and_time :
    let s := { hub with chans := [(300, { Channel.init with hist :=
      [ ⟨4005, 0x8000, 20800, false, true, false, false, false, false⟩, ⟨4001, 0x8000, 40000, false, true, false, false, false, false⟩,
        ⟨3997, 0x8000, 19200, false, true, false, false, false, false⟩ ] })] }
    let s := (s.setReg Reg.timeMerPeriod 0xA8000000).setReg (Reg.timeMerPeriod + 4) 0x61
    let o := s.evaluate 300 1000 ⟨1, 3, 1, 0, 0, 0, 0, 15, 1, [65536], [16384, 49152, 16384], [65536, 0, -65536], -2350⟩
    s.period = 25000 * 2 ^ 24 ∧ o.1 = 40000 ∧ o.2.1 = 4900 := by decide +kernel

/-- 06, "packing a hit of channel 300". -/
theorem test_hit_record :
    hitRecord 300 8 40000 4900 2 0 = 0x9620271004C91000 ∧
      leBytes 8 (hitRecord 300 8 40000 4900 2 0).toNat = [0x00, 0x10, 0xC9, 0x04, 0x10, 0x27, 0x20, 0x96] := by
  decide +kernel

/-- 06, "one tower": 800 has code 195. -/
theorem test_tower_code : towerCode 800 = 195 := by decide +kernel

/-- 08, "a CODED section of two crossings of channel 300". -/
theorem test_coded_section :
    tokenBytes (encodeStream 0x0E 0 [308, 310, 307, 309, 308, 308, 308, 306]) =
      [0x10, 0x80, 0x00, 0x13, 0x40, 0x50, 0x06, 0x45, 0x41, 0x00, 0xC0] := by decide +kernel

/-- 08, the same section decoded, with its five zero bytes. -/
theorem test_decoded_section :
    (match decodeStream false 0 ([0x10, 0x80, 0x00, 0x13, 0x40, 0x50, 0x06, 0x45, 0x41, 0x00, 0xC0] ++ List.replicate 5 0) 8 with
      | .ok l => l
      | .error _ => []) = [308, 310, 307, 309, 308, 308, 308, 306] := by decide +kernel

/-- 04, "gain of an odd slice between visits": -88 at 37.5 °C. -/
theorem test_gain_between_visits :
    vApp [⟨480, [(1, -120)], 0⟩, ⟨640, [(1, -80)], 0⟩] 1 (-110) (some 512) 600 = -88 := by decide +kernel

/-- 02, "convergence from a 20.0 ps error", update 1: φ goes from -8.0 to -12.0 ps. -/
theorem test_servo_update :
    let s := { hub with servo := { ServoState.init with phiFine := -8 * 2 ^ 49, phi := -16, ePrev := some (20 * 2 ^ 49) } }
    let t := s.servoUpdate (12 * 2 ^ 49)
    t.servo.phiFine = -12 * 2 ^ 49 ∧ (t.servo.moves.map fun m => roundHalfIn m.phiFine (2 ^ 48)) = [-24] ∧ t.servo.clamped = false := by decide +kernel

/-- 02, the same example, update 0: the correction is clamped to 8.0 ps. -/
theorem test_servo_clamps :
    let t := hub.servoUpdate (20 * 2 ^ 49)
    t.servo.phiFine = -8 * 2 ^ 49 ∧ t.servo.clamped = true := by decide +kernel

/-- 02, "a stake that arrives too late": distance 7, LATE under REJECT, and under RUN_LATE it runs a crossing later. -/
theorem test_stake_too_late :
    let s := { hub with time := { hub.time with orbit := 1000000, cross := 2795 } }
    let k := { stakeAt 5 (List.replicate 36 0) with orbit := 1000001, x := 2 }
    s.distance k.orbit k.x = 7 ∧ s.stakeFails k 0 = some Status.late ∧
      s.stakeFails { k with runLate := true } 1 = none ∧ s.lateRun k = .at_ (s.time.now + 1) ∧
      s.stakeFails { k with x := 3 } 0 = none := by decide +kernel

/-- 03 Table 3.4, samples 1, 2, 8 and 12: the range that the next sample is taken at. -/
theorem test_ranges :
    nextGainOf .g64 1 4095 748 2 0 4 = .g8 ∧ nextGainOf .g8 1 4095 4095 0 0 4 = .g1 ∧ nextGainOf .g1 1 4095 748 0 4 4 = .g8 ∧
      nextGainOf .g8 1 780 300 4 8 4 = .g64 := by decide +kernel

/-- 13, "a 4-wire Pt100 at 25.00 °C": within half an LSB of rounding, VALUE is 25 in Q16.16. -/
theorem test_pt100 :
    ((evalCurve 2 4602607 1 1 6 400000 0 [0x42C80000, 0, 0, 0]).map fun v => decide ((v.1 - 25 * 65536).natAbs ≤ 8 && (v.2 - v.1).natAbs ≤ 1)) = some true := by
  decide +kernel

/-- 00, channel 300 lies in station 18 and is converted by hub-wide slices 618 and 619; its station's spare is 626. -/
theorem test_slice_numbers : 300 / 16 = 18 ∧ sliceNo 18 24 = 618 ∧ sliceNo 18 25 = 619 ∧ sliceNo 18 32 = 626 := by decide

/-- 09 R264, the published symbols of K28.5 at either disparity, of D.0.0 and of D.31.7; a symbol reads back. -/
theorem test_8b10b :
    [encode8b10b false k28_5, encode8b10b true k28_5, encode8b10b false (.d 0), encode8b10b true (.d 0xFF)] =
      [0b0011111010, 0b1100000101, 0b1001110100, 0b0101001110] ∧
      decodeSymbol false 0b0011111010 = (some k28_5, true) := by decide +kernel

/-! ### One step -/

/-- SYNC_X takes the Datum from TIME_DATUM_LOAD. -/
theorem test_sync_x :
    ((match exec .syncX ((fastCmd 0x08).setReg Reg.timeDatumLoad 0x00500003) with
      | .next t => (t.time.orbit, t.time.cross)
      | _ => (0, 0)) = (5, 3)) := by decide +kernel

/-- With an empty queue a crossing passes. -/
theorem test_idle :
    (match step hub with
      | .next t => (t.time.now, t.time.xcount, t.time.cross)
      | _ => (0, 0, 0)) = (10001, 5001, 101) := by decide +kernel

/-- DESCRIPTOR_FETCH issues a read of the one descriptor that waits. -/
theorem test_fetch :
    (match exec .descriptorFetch (((hub.setReg Reg.ctlCtl 1).setCls 0 credited).setRing 31 { Ring.init with st := 1, tail := 1 }) with
      | .next t => t.ctl.reads.map fun q => (q.rtag, q.len)
      | _ => []) = [(0, 64)] := by decide +kernel

/-- After a power reset nothing but the phase's own events acts: a fetch does nothing. -/
theorem test_reset_phase : State.reset.power.phase = .rails ∧ State.reset.served .downlink = false := by decide +kernel

end Sys2Proof.Machine
end

/-!
PROOFS. The front end (03): a sample of a channel becomes a container (O21), FE_CHc is staged, the DC test's current flows and
stops, and sources return to zero (O22).
-/

namespace Sys2Proof.Machine

open Sys2Proof

/-- A row whose condition holds has its effect (notes/assumptions/2.md). -/
theorem whenDue_of_due {s t : State} {due : Bool} (h : due = true) : whenDue s due t = .next t := by
  rw [h, whenDue_true]

/-! ### What the statistics of a sample leave alone (04 R115 to R125, R132) -/

/-- `t` is `s` with other statistics of channel `c`, its station and the slices: the samples held, the gain in use, every
other channel, PIPE and the registers are as before. -/
structure KeepsSamples (c : Nat) (s t : State) : Prop where
  hist : (t.chan c).hist = (s.chan c).hist
  gain : (t.chan c).gain = (s.chan c).gain
  others : ∀ m, m ≠ c → t.chan m = s.chan m
  rest : t = { s with chans := t.chans, slices := t.slices, stations := t.stations }

namespace KeepsSamples

variable {c : Nat} {s t u : State}

theorem refl (c : Nat) (s : State) : KeepsSamples c s s := ⟨rfl, rfl, fun _ _ => rfl, rfl⟩

theorem trans (hst : KeepsSamples c s t) (htu : KeepsSamples c t u) : KeepsSamples c s u where
  hist := htu.hist.trans hst.hist
  gain := htu.gain.trans hst.gain
  others m hm := (htu.others m hm).trans (hst.others m hm)
  rest := htu.rest.trans (by rw [hst.rest])

theorem setStn (c : Nat) (s : State) (j : Nat) (q : Station) : KeepsSamples c s (s.setStn j q) :=
  ⟨rfl, rfl, fun _ _ => rfl, rfl⟩

theorem setSlice (c : Nat) (s : State) (j : Nat) (q : Slice) : KeepsSamples c s (s.setSlice j q) :=
  ⟨rfl, rfl, fun _ _ => rfl, rfl⟩

theorem setChan (s : State) {c : Nat} {w : Channel} (hist : w.hist = (s.chan c).hist) (gain : w.gain = (s.chan c).gain) :
    KeepsSamples c s (s.setChan c w) where
  hist := by rw [State.chan_setChan_same, hist]
  gain := by rw [State.chan_setChan_same, gain]
  others _ hm := s.chan_setChan_ne w hm
  rest := rfl

theorem regs (h : KeepsSamples c s t) : t.regs = s.regs := by rw [h.rest]

theorem pipe (h : KeepsSamples c s t) : t.pipe = s.pipe := by rw [h.rest]

theorem reg (h : KeepsSamples c s t) (a : Nat) : t.reg a = s.reg a := by rw [h.rest]; rfl

end KeepsSamples

section

variable (s : State)

/-- A conversion writes its own slice only. -/
theorem State.converted_eq_setSlice (st j : Nat) (err : Bool) :
    ∃ w, s.converted st j err = s.setSlice (sliceNo st j) w := by
  unfold State.converted
  cases err with
  | true => exact ⟨_, rfl⟩
  | false => exact ⟨_, rfl⟩

theorem State.converted_keeps (c st j : Nat) (err : Bool) : KeepsSamples c s (s.converted st j err) := by
  obtain ⟨w, hw⟩ := s.converted_eq_setSlice st j err
  exact hw ▸ .setSlice c s _ w

theorem State.pedStat_keeps (c k : Nat) (v : Sample) : KeepsSamples c s (s.pedStat c k v) := by
  unfold State.pedStat
  split
  · exact .setChan s (by split <;> rfl) (by split <;> rfl)
  · exact .refl c s

theorem State.skewStat_keeps (c k : Nat) : KeepsSamples c s (s.skewStat c k) := by
  unfold State.skewStat
  split
  · split
    · dsimp only
      split
      · exact .setChan s rfl rfl
      · exact .refl c s
    · exact .refl c s
  · exact .refl c s

theorem State.spareSkewStat_keeps (c : Nat) : KeepsSamples c s (s.spareSkewStat c) := by
  unfold State.spareSkewStat
  dsimp only
  split
  · split
    · exact .setStn c s _ _
    · exact .refl c s
  · exact .refl c s

theorem State.parStat_keeps (c j : Nat) (v : Sample) (other : Nat) : KeepsSamples c s (s.parStat c j v other) := by
  unfold State.parStat
  dsimp only
  split
  · split
    · exact .setStn c s _ _
    · exact .refl c s
  · exact .refl c s

theorem State.shadowStat_keeps (c k : Nat) (v : Sample) (la64 other : Nat) :
    KeepsSamples c s (s.shadowStat c k v la64 other) := by
  have put (P : Prop) [Decidable P] (q : Station) : KeepsSamples c s (if P then s.setStn (c / 16) q else s) := by
    split
    · exact .setStn c s _ _
    · exact .refl c s
  unfold State.shadowStat
  dsimp only
  split
  · split
    · split
      · split
        · exact .refl c s
        · split
          · exact .setStn c s _ _
          · exact .setStn c s _ _
      · split
        · exact put _ _
        · split
          · exact put _ _
          · exact put _ _
        · exact put _ _
        · exact .refl c s
    · exact .refl c s
  · exact .refl c s

theorem State.besideCheck_keeps (c k : Nat) (err : Bool) : KeepsSamples c s (s.besideCheck c k err) := by
  unfold State.besideCheck
  split
  · exact s.converted_keeps c _ _ err
  · exact .refl c s

/-- The check of a conversion made beside a sample writes slices only. -/
theorem State.besideCheck_eq (c k : Nat) (err : Bool) :
    s.besideCheck c k err = { s with slices := (s.besideCheck c k err).slices } := by
  unfold State.besideCheck
  split
  · next j _ =>
    obtain ⟨w, hw⟩ := s.converted_eq_setSlice (c / 16) j err
    rw [hw]
    rfl
  · rfl

/-! ### A sample enters the channel and PIPE (05 R142, 01 R20) -/

/-- Sample `v` of number k in the present crossing is the newest of channel `c`, taken at gain `g`, and stands in PIPE; every
other channel and every register outside `l` are as before, and nothing but channels, slices, PIPE and registers differs. -/
structure Entered (l : List Nat) (c k : Nat) (v : Sample) (g : Gain) (s t : State) : Prop where
  newest : (t.chan c).hist.head? = some v
  gain : (t.chan c).gain = g
  inPipe : tabGet 0 t.pipe (pipeKey s.time.xcount c k) = v.cont
  others : ∀ m, m ≠ c → t.chan m = s.chan m
  regs : SameRegs l s t
  rest : t = { s with chans := t.chans, slices := t.slices, pipe := t.pipe, regs := t.regs }

/-- The newest sample held is the one that was pushed, whether or not it fills the gap before it (05 R143). -/
theorem head?_pushSample (h : List Sample) (v : Sample) : (pushSample h v).head? = some v := by
  unfold pushSample
  split
  · rfl
  · rfl

theorem head?_take_histDepth (h : List Sample) : (h.take histDepth).head? = h.head? := by
  cases h with
  | nil => rfl
  | cons v h => rfl

@[simp] theorem Channel.detect_hist (c : Channel) (v : Sample) (half : Bool) : (c.detect v half).hist = c.hist := by
  unfold Channel.detect
  cases half <;> dsimp only <;> split <;> rfl

@[simp] theorem Channel.detect_gain (c : Channel) (v : Sample) (half : Bool) : (c.detect v half).gain = c.gain := by
  unfold Channel.detect
  cases half <;> dsimp only <;> split <;> rfl

namespace Entered

variable {l l' : List Nat} {c k : Nat} {v : Sample} {g : Gain} {s t : State}

/-- A register of `l` may be set afterwards. -/
theorem setReg (h : Entered l c k v g s t) {a : Nat} (ha : a ∈ l) (w : Word) : Entered l c k v g s (t.setReg a w) where
  newest := h.newest
  gain := h.gain
  inPipe := h.inPipe
  others := h.others
  regs r hr := (t.reg_setReg_ne w fun e : r = a => hr (e ▸ ha)).trans (h.regs r hr)
  rest := by rw [h.rest]; rfl

theorem event (h : Entered l c k v g s t) {a : Nat} (ha : a ∈ l) (b : Nat) : Entered l c k v g s (t.event a b) :=
  h.setReg ha _

theorem countFld (h : Entered l c k v g s t) {a : Nat} (ha : a ∈ l) (hi lo : Nat) :
    Entered l c k v g s (t.countFld a hi lo) :=
  h.setReg ha _

theorem mono (h : Entered l c k v g s t) (hl : l ⊆ l') : Entered l' c k v g s t :=
  { h with regs := fun r hr => h.regs r fun hm => hr (hl hm) }

/-- The channel itself may have changed before the sample entered. -/
theorem of_setChan {w : Channel} (h : Entered l c k v g (s.setChan c w) t) : Entered l c k v g s t :=
  { newest := h.newest
    gain := h.gain
    inPipe := h.inPipe
    others := fun m hm => (h.others m hm).trans (s.chan_setChan_ne w hm)
    regs := h.regs
    rest := h.rest }

/-- A check beside the sample may follow. -/
theorem besideCheck (h : Entered l c k v g s t) (c' k' : Nat) (err : Bool) :
    Entered l c k v g s (t.besideCheck c' k' err) := by
  rw [t.besideCheck_eq]
  exact { h with rest := by rw [h.rest] }

/-- Statistics may follow: then stations may differ too. -/
theorem rest_of_keeps {u : State} (h : Entered l c k v g s t) (hk : KeepsSamples c t u) :
    u = { s with chans := u.chans, slices := u.slices, stations := u.stations, pipe := u.pipe, regs := u.regs } := by
  rw [hk.pipe, hk.regs]
  exact hk.rest.trans (by rw [h.rest])

end Entered

/-- Channel `c` becomes `w`, and the container of sample `v` of number k stands in PIPE. -/
def State.place (s : State) (c k : Nat) (v : Sample) (w : Channel) : State :=
  { s.setChan c w with pipe := tabSet 0 s.pipe (pipeKey s.time.xcount c k) v.cont }

theorem State.place_entered (l : List Nat) {c : Nat} (k : Nat) {v : Sample} {w : Channel} (hist : w.hist.head? = some v) :
    Entered l c k v w.gain s (s.place c k v w) where
  newest := (congrArg (fun q => q.hist.head?) (s.chan_setChan_same c w)).trans hist
  gain := congrArg Channel.gain (s.chan_setChan_same c w)
  inPipe := tabGet_tabSet_same _ _ _ _
  others _ hm := s.chan_setChan_ne w hm
  regs _ _ := rfl
  rest := rfl

/-- What a container's intake does: the sample becomes the channel's newest and is placed, and SAT_EVT of the station may be
set (05 R140). -/
theorem State.intake_eq (c k : Nat) (v : Sample) (half : Bool) :
    ∃ (w : Channel) (sat : Bool), w.hist.head? = some v ∧ w.gain = (s.chan c).gain ∧
      s.intake c k v half = if sat then (s.place c k v w).event (regKey Reg.stnStat (c / 16)) 2 else s.place c k v w := by
  refine ⟨_, _, ?_, ?_, rfl⟩
  · rw [Channel.detect_hist]
    exact (head?_take_histDepth _).trans (head?_pushSample _ _)
  · exact Channel.detect_gain _ _ _

theorem State.intake_entered (c k : Nat) (v : Sample) (half : Bool) :
    Entered [regKey Reg.stnStat (c / 16)] c k v (s.chan c).gain s (s.intake c k v half) := by
  obtain ⟨w, sat, hist, gain, h⟩ := s.intake_eq c k v half
  have placed := s.place_entered [regKey Reg.stnStat (c / 16)] (c := c) k hist
  rw [h, ← gain]
  cases sat with
  | true => exact placed.event (List.mem_singleton_self _) 2
  | false => exact placed

/-! ### The fields of a container (03 R79, 04 R106) -/

theorem le_clampI {lo hi : Int} (h : lo ≤ hi) (a : Int) : lo ≤ clampI lo hi a := by
  unfold clampI
  split
  · omega
  · split <;> omega

theorem clampI_le {lo hi : Int} (h : lo ≤ hi) (a : Int) : clampI lo hi a ≤ hi := by
  unfold clampI
  split
  · omega
  · split <;> omega

theorem clampI_of_mem {lo hi a : Int} (hlo : lo ≤ a) (hhi : a ≤ hi) : clampI lo hi a = a := by
  unfold clampI
  rw [if_neg (by omega), if_neg (by omega)]

/-- Both codes are limited to 0 to 4095, so that as integers they are the limited sums. -/
theorem ampCode_cast (offset : Nat) (v : Int) (g : Gain) :
    (ampCode offset v g : Int) = clampI 0 4095 (offset + roundHalfOut (v * 262144) (2000000000 * g.lsbs)) :=
  Int.toNat_of_nonneg (le_clampI (by omega) _)

theorem sliceCode_cast (offset : Nat) (v : Int) (g : Gain) (dev : Int) :
    (sliceCode offset v g dev : Int) = clampI 0 4095 (ampCode offset v g + dev) :=
  Int.toNat_of_nonneg (le_clampI (by omega) _)

theorem sliceCode_lt (offset : Nat) (v : Int) (g : Gain) (dev : Int) : sliceCode offset v g dev < 4096 := by
  have h := clampI_le (lo := 0) (hi := 4095) (by omega) (ampCode offset v g + dev)
  rw [← sliceCode_cast] at h
  omega

/-- A converter that does not depart delivers the amplifier's code. -/
theorem sliceCode_zero_cast (offset : Nat) (v : Int) (g : Gain) :
    (sliceCode offset v g 0 : Int) = clampI 0 4095 (offset + roundHalfOut (v * 262144) (2000000000 * g.lsbs)) := by
  rw [sliceCode_cast, Int.add_zero, ampCode_cast]
  exact clampI_of_mem (le_clampI (by omega) _) (clampI_le (by omega) _)

/-- The container of a converted sample: RANGE, EDGE, CAL and CODE (04 R106). -/
def containerOf (g : Gain) (edge cal : Bool) (code : Nat) : Container :=
  BitVec.ofNat 16 (g.code * 2 ^ 14 + (if edge then 2 ^ 13 else 0) + (if cal then 2 ^ 12 else 0) + code)

theorem containerOf_toNat {code : Nat} (g : Gain) (edge cal : Bool) (h : code < 4096) :
    (containerOf g edge cal code).toNat = g.code * 2 ^ 14 + edge.toNat * 2 ^ 13 + cal.toNat * 2 ^ 12 + code := by
  have hg : g.code ≤ 2 := by cases g <;> decide
  have hedge : (if edge then 2 ^ 13 else 0) = edge.toNat * 2 ^ 13 := by cases edge <;> rfl
  have hcal : (if cal then 2 ^ 12 else 0) = cal.toNat * 2 ^ 12 := by cases cal <;> rfl
  have := edge.toNat_le
  have := cal.toNat_le
  rw [containerOf, hedge, hcal, BitVec.toNat_ofNat, Nat.mod_eq_of_lt (by omega)]

theorem Sample.range_of_containerOf {v : Sample} {g : Gain} {edge cal : Bool} {code : Nat} (h : code < 4096)
    (hv : v.cont = containerOf g edge cal code) : v.range = g.code := by
  have := edge.toNat_le
  have := cal.toNat_le
  rw [Sample.range, hv, containerOf_toNat g edge cal h]
  omega

theorem Sample.code_of_containerOf {v : Sample} {g : Gain} {edge cal : Bool} {code : Nat} (h : code < 4096)
    (hv : v.cont = containerOf g edge cal code) : v.code = code := by
  rw [Sample.code, hv, containerOf_toNat g edge cal h]
  omega

/-! ### Samples of enabled and of disabled channels (03 R79 to R88, 04 R107) -/

/-- The gain that the next sample of channel `c` is taken at: the forced one, else the range decision's, ×1 for the first sample
(03 R86 to R88). -/
def State.gainInUse (s : State) (c : Nat) : Gain :=
  match forcedGain (bits (s.fe c) 5 4) with
  | some g => g
  | none => if (s.chan c).started then (s.chan c).nextGain else .g1

theorem State.gainInUse_eq_getD (c : Nat) :
    s.gainInUse c =
      (forcedGain (bits (s.fe c) 5 4)).getD (if (s.chan c).started then (s.chan c).nextGain else .g1) := by
  unfold State.gainInUse
  cases forcedGain (bits (s.fe c) 5 4) <;> rfl

/-- A clipped sample is counted, and sets CLIP_EVT (03 R90). -/
def State.countClip (s : State) (v : Sample) : State :=
  if v.clipped then (s.countFld Reg.feClipCount 31 0).event Reg.feStat 1 else s

/-- The registers that the sample of an enabled channel may write. -/
abbrev sampleRegs (c : Nat) : List Nat := [regKey Reg.stnStat (c / 16), Reg.feClipCount, Reg.feStat]

theorem Entered.countClip {c k : Nat} {v : Sample} {g : Gain} {s t : State} (h : Entered (sampleRegs c) c k v g s t)
    (w : Sample) : Entered (sampleRegs c) c k v g s (t.countClip w) := by
  unfold State.countClip
  split
  · exact (h.countFld (by simp) 31 0).event (by simp) 1
  · exact h

/-- The statistics that sample `v` enters, in the order in which they are taken: converter `d` made the conversion, with the
outcome `err` of its self-check; `par` and `shadow` are the codes of the converter beside it (04 R104, R115 to R125). -/
def State.sampleStats (s : State) (c k d : Nat) (err : Bool) (v : Sample) (la64 par shadow : Nat) : State :=
  (((((s.converted (c / 16) d err).pedStat c k v).skewStat c k).spareSkewStat c).parStat c (2 * (c % 16) + k % 2) v
    par).shadowStat c k v la64 shadow

theorem State.sampleStats_keeps (c k d : Nat) (err : Bool) (v : Sample) (la64 par shadow : Nat) :
    KeepsSamples c s (s.sampleStats c k d err v la64 par shadow) :=
  (((((s.converted_keeps c _ _ _).trans (State.pedStat_keeps _ c _ _)).trans (State.skewStat_keeps _ c _)).trans
    (State.spareSkewStat_keeps _ c)).trans (State.parStat_keeps _ c _ _ _)).trans (State.shadowStat_keeps _ c _ _ _ _)

/-- The sample of an enabled channel: the channel's range decision and DC sums move on, the sample enters and is counted when
clipped, and with a converter its statistics follow. -/
theorem State.takeSample_eq (c k n : Nat) (i : SampleIn) :
    ∃ (w : Channel) (v : Sample) (half : Bool) (d la64 par shadow : Nat), w.gain = s.gainInUse c ∧ v.n = n ∧
      (∃ edge cal, v.cont = if s.lost (c / 16) (2 * (c % 16) + k % 2) then 0xC000
        else containerOf (s.gainInUse c) edge cal (sliceCode (feOffset (s.fe c)) i.v (s.gainInUse c) i.dev)) ∧
      s.takeSample c k n i =
        (if s.lost (c / 16) (2 * (c % 16) + k % 2) then ((s.setChan c w).intake c k v half).countClip v
        else (((s.setChan c w).intake c k v half).countClip v).sampleStats c k d i.selfErr v la64 par shadow) :=
  ⟨_, _, _, _, _, _, _, by rfl, by rfl, ⟨_, _, by rfl⟩, rfl⟩

/-- A sample of an enabled channel with a converter enters with its container of the gain in use, and only statistics follow. -/
theorem State.takeSample_entered {c k : Nat} (n : Nat) (i : SampleIn)
    (hl : s.lost (c / 16) (2 * (c % 16) + k % 2) = false) :
    ∃ (v : Sample) (edge cal : Bool) (t : State), v.n = n ∧
      v.cont = containerOf (s.gainInUse c) edge cal (sliceCode (feOffset (s.fe c)) i.v (s.gainInUse c) i.dev) ∧
      Entered (sampleRegs c) c k v (s.gainInUse c) s t ∧ KeepsSamples c t (s.takeSample c k n i) := by
  obtain ⟨w, v, half, d, la64, par, shadow, gain, hn, ⟨edge, cal, hcont⟩, h⟩ := s.takeSample_eq c k n i
  rw [hl, if_neg Bool.false_ne_true] at hcont h
  have entered : Entered (sampleRegs c) c k v (s.gainInUse c) s (((s.setChan c w).intake c k v half).countClip v) := by
    have h0 := (s.setChan c w).intake_entered c k v half
    rw [State.chan_setChan_same, gain] at h0
    exact ((h0.mono (by simp)).of_setChan).countClip v
  exact ⟨v, edge, cal, _, hn, hcont, entered, h ▸ State.sampleStats_keeps _ c k d i.selfErr v la64 par shadow⟩

/-- The sample of a disabled channel enters with container 0xC000 and value 0. -/
theorem State.skipSample_entered (c k n : Nat) :
    ∃ v : Sample, v.n = n ∧ v.cont = 0xC000 ∧ v.m = 0 ∧
      Entered [regKey Reg.stnStat (c / 16)] c k v (s.chan c).gain s (s.skipSample c k n) := by
  have h := (s.setChan c { s.chan c with started := false, prevSwitch := false, c64 := 0, c8 := 0 }).intake_entered c k
    ⟨n, 0xC000, 0, false, false, bits (s.fe c) 5 4 != 0, s.chStale c, (s.chan c).fault, s.visited c⟩ false
  rw [State.chan_setChan_same] at h
  exact ⟨_, rfl, rfl, rfl, h.of_setChan⟩

/-! ### The row SAMPLE_CONTAINER -/

/-- With no DC test's results held there are none to release. -/
theorem State.dcRelease_of_not_held {s : State} (h : s.dcTest.held = none) (now : Bool) : s.dcRelease now = s := by
  unfold State.dcRelease
  rw [h]

/-- "When `a` is `b`, `x` is `y`", as the rows that wait for an earlier one of the crossing test it. -/
theorem bne_or_beq_of_imp {a b : Nat} {x y : Option Nat} (h : a = b → x = y) : (a != b || x == y) = true := by
  rw [Bool.or_eq_true, bne_iff_ne, beq_iff_eq]
  by_cases hab : a = b
  · exact .inr (h hab)
  · exact .inl hab

/-- The next sample of a channel is due in a sampled crossing, once what the gap and crossing 0 have to do before it is done. -/
theorem execSampleContainer_of_due {s : State} {ch k : Nat} (i : SampleIn) (hch : ch < 512) (hk : k < 4)
    (sampling : s.time.sampling = true)
    (newer : ∀ v, (s.chan ch).hist.head? = some v → v.n < 4 * s.time.xcount + k)
    (gapDone : s.time.cross + s.g = s.n → s.time.gapStartAt = some s.time.now)
    (orbitDone : s.time.cross = 0 → s.time.orbitStartAt = some s.time.now)
    (notDue : s.filterDue (ch / 16) = false) :
    exec (.sampleContainer ch k i.v i.la64 i.la8 i.dev i.selfErr (i.dev2, i.selfErr2)) s =
      .next (State.dcRelease (State.besideCheck (if s.chEn ch then s.takeSample ch k (4 * s.time.xcount + k) i
        else s.skipSample ch k (4 * s.time.xcount + k)) ch k i.selfErr2) false) := by
  refine whenDue_of_due ?_
  simp only [Bool.and_eq_true, decide_eq_true_eq, sampling, hch, hk, notDue, Bool.not_false, and_true, true_and]
  refine ⟨⟨?_, ?_⟩, ?_⟩
  · split
    · next v l hist => exact decide_eq_true (newer v (by rw [hist]; rfl))
    · rfl
  · exact bne_or_beq_of_imp gapDone
  · exact bne_or_beq_of_imp orbitDone

end

/-! ### A sample becomes a container -/

/-- Settles O21: the container of a sample is read from the state in which it entered, and what follows it in the same
crossing (statistics, and the check of the converter beside it) leaves the samples, PIPE and the registers alone. -/
theorem samplesBecomeContainers : Obligations.SamplesBecomeContainers := by
  refine ⟨?_, ?_⟩
  · intro ch k i s hch hk sampling newer gapDone orbitDone held en notDue hl
    obtain ⟨v, edge, cal, t, hn, hcont, entered, stats⟩ := s.takeSample_entered (4 * s.time.xcount + k) i hl
    obtain ⟨w, hw⟩ : ∃ w, (s.takeSample ch k (4 * s.time.xcount + k) i).besideCheck ch k i.selfErr2 = w := ⟨_, rfl⟩
    have keeps : KeepsSamples ch t w := hw ▸ stats.trans (State.besideCheck_keeps _ ch k i.selfErr2)
    have rest : w = { s with chans := w.chans, slices := w.slices, stations := w.stations, pipe := w.pipe, regs := w.regs } :=
      entered.rest_of_keeps keeps
    have gain : (w.chan ch).gain = s.gainInUse ch := keeps.gain.trans entered.gain
    have code : v.code = sliceCode (feOffset (s.fe ch)) i.v (s.gainInUse ch) i.dev :=
      Sample.code_of_containerOf (sliceCode_lt ..) hcont
    refine ⟨w, ?_, v, ?_⟩
    · rw [execSampleContainer_of_due i hch hk sampling newer gapDone orbitDone notDue, if_pos en, hw,
        State.dcRelease_of_not_held (by rw [rest]; exact held)]
    · refine ⟨by rw [keeps.hist, entered.newest], hn, by rw [gain, code], ?_, ?_, ?_, ?_, ?_, ?_, rest⟩
      · intro hdev
        rw [code, hdev, gain, sliceCode_zero_cast]
      · rw [gain, Sample.range_of_containerOf (sliceCode_lt ..) hcont]
      · rw [gain, s.gainInUse_eq_getD]
      · rw [keeps.pipe, entered.inPipe]
      · exact fun c hc => (keeps.others c hc).trans (entered.others c hc)
      · exact fun a ha => (keeps.reg a).trans (entered.regs a ha)
  · intro ch k i s hch hk sampling newer gapDone orbitDone held dis notDue
    obtain ⟨v, hn, hcont, hm, h⟩ := s.skipSample_entered ch k (4 * s.time.xcount + k)
    have entered := h.besideCheck ch k i.selfErr2
    refine ⟨_, ?_, v, entered.newest, hn, hcont, hm, entered.inPipe.trans hcont, entered.others, entered.regs, entered.rest⟩
    rw [execSampleContainer_of_due i hch hk sampling newer gapDone orbitDone notDue, if_neg (by simp [dis]),
      State.dcRelease_of_not_held (by rw [entered.rest]; exact held)]

/-! ### Writes of FE_CHc (03 R82, 17 R466) -/

/-- The row of the register map that holds FE_CH0 to FE_CH511 (03 Table 3.9). -/
def feChRow : RegRow := ⟨0x03400, 4, 512, .none, .plain, 0x800083, 0xFFF7FF, 0x0, 0x0, 0x0⟩

/-- A row whose words lie below an address does not hold it. -/
theorem RegRow.has_of_end_le {r : RegRow} {a : Nat} (hb : r.base < a) (he : r.base + r.stride * r.count ≤ a) :
    r.has a = false := by
  unfold RegRow.has
  split
  · exact beq_false_of_ne (by omega)
  · refine Bool.eq_false_iff.2 fun h => ?_
    simp only [Bool.and_eq_true, decide_eq_true_eq, beq_iff_eq] at h
    obtain ⟨⟨_, aligned⟩, idx⟩ := h
    rcases Nat.eq_zero_or_pos r.stride with stride | stride
    · rw [stride, Nat.mod_zero] at aligned
      omega
    · have := (Nat.div_lt_iff_lt_mul stride).1 idx
      rw [Nat.mul_comm] at this
      omega

/-- The rows of the page that come before FE_CHc lie below it. -/
theorem regRowsFe_before : ∀ r ∈ regRowsFe.take 8, r.base < 0x3400 ∧ r.base + r.stride * r.count ≤ 0x3400 := by decide

theorem regRow_feCh {c : Nat} (hc : c < 512) : regRow (Reg.feCh c) = some feChRow := by
  have page : Reg.feCh c / 0x1000 = 3 := by simp only [Reg.feCh]; omega
  have holds : feChRow.has (Reg.feCh c) = true := by
    simp only [RegRow.has, feChRow, Reg.feCh, Nat.add_sub_cancel_left, Nat.mul_mod_right,
      Nat.mul_div_cancel_left c (by decide : 0 < 4)]
    simpa using hc
  unfold regRow
  rw [page]
  refine List.find?_eq_some_iff_append.2 ⟨holds, regRowsFe.take 8, regRowsFe.drop 9, rfl, fun r hr => ?_⟩
  obtain ⟨hb, he⟩ := regRowsFe_before r hr
  rw [RegRow.has_of_end_le (by simp only [Reg.feCh]; omega) (by simp only [Reg.feCh]; omega)]
  rfl

theorem arrIdx_feCh {c : Nat} (hc : c < 512) : arrIdx (Reg.feCh c) (Reg.feCh 0) 4 512 = some c := by
  have sub : Reg.feCh c - Reg.feCh 0 = 4 * c := by simp only [Reg.feCh]; omega
  unfold arrIdx
  rw [sub, Nat.mul_mod_right, Nat.mul_div_cancel_left c (by decide), if_pos ⟨by simp only [Reg.feCh]; omega, rfl, hc⟩]

/-- Outside an array's words there is no index. -/
theorem arrIdx_of_lt {o base : Nat} (h : o < base) (stride n : Nat) : arrIdx o base stride n = none :=
  if_neg fun hi => by omega

theorem select_feCh (q : PathState) {c : Nat} (hc : c < 512) (v : Word) : q.select (Reg.feCh c) v = none := by
  unfold PathState.select
  simp only [Reg.feCh, Reg.topPathStat, Reg.calSel, Reg.calSpareSkewSel, Reg.stnSel, Reg.trgCtrSel, Reg.memWinAddr,
    Reg.memBankSel]
  repeat rw [if_neg (by omega)]

theorem memWindow_feCh {c : Nat} (hc : c < 512) : memWindow (Reg.feCh c) = none := by
  unfold memWindow
  simp only [Reg.memWinPlain, Reg.feCh]
  exact if_neg (by omega)

section

variable (s : State)

theorem State.writeRefused_feCh (p : Path) {c : Nat} (hc : c < 512) (v : Word) : s.writeRefused p (Reg.feCh c) v = false := by
  unfold State.writeRefused shareClass
  rw [arrIdx_of_lt (by simp only [Reg.feCh, Reg.splShare]; omega)]
  simp only [Reg.feCh, Reg.timeOrbitNext, Reg.trgWin, Reg.trgTrvState, Reg.trgCtrW]
  repeat rw [if_neg (by omega)]

/-- FE_CHc is staged with the crossing of its write. -/
theorem State.writeActs_feCh (p : Path) {c : Nat} (hc : c < 512) (old v : Word) :
    s.writeActs p (Reg.feCh c) old v = s.setChan c { s.chan c with feAt := some s.time.now } := by
  have page : Reg.feCh c / 0x1000 = 3 := by simp only [Reg.feCh]; omega
  unfold State.writeActs
  rw [page]
  show s.actFe (Reg.feCh c) = _
  unfold State.actFe
  rw [arrIdx_feCh hc]

theorem State.writePlain_feCh (p : Path) {c : Nat} (hc : c < 512) (v : Word) :
    s.writePlain p (Reg.feCh c) feChRow v =
      (s.setReg (Reg.feCh c) (feChRow.stored (s.reg (Reg.feCh c)) v)).setChan c { s.chan c with feAt := some s.time.now } := by
  unfold State.writePlain
  rw [select_feCh _ hc, memWindow_feCh hc, s.writeRefused_feCh p hc,
    arrIdx_of_lt (by simp only [Reg.feCh, Reg.ctlCfg]; omega)]
  exact State.writeActs_feCh _ p hc _ _

/-- A write of FE_CHc that reaches it ends the path's arm, sets the register and stamps the channel. -/
theorem State.pathWrite_feCh {s : State} {p : Path} {c : Nat} (hc : c < 512) (h : Reaches s p (Reg.feCh c)) (v : Word) :
    s.pathWrite p (Reg.feCh c) v =
      ((s.disarm p).setReg (Reg.feCh c) (feChRow.stored (s.reg (Reg.feCh c)) v)).setChan c
        { s.chan c with feAt := some s.time.now } := by
  obtain ⟨served, unlocked⟩ := h
  have unlocked' : (s.disarm p).pageLocked (Reg.feCh c / 0x1000) = false := by
    rw [← unlocked]
    cases p <;> rfl
  unfold State.pathWrite State.writeReg
  rw [if_pos served, regRow_feCh hc]
  dsimp only
  rw [if_neg (by simp only [Reg.feCh, Reg.topUnlock]; omega), if_neg (by simp [unlocked']),
    if_neg (by simp only [Reg.feCh, Reg.topLock]; omega)]
  refine (State.writePlain_feCh _ p hc v).trans ?_
  cases p <;> rfl

/-! ### The DC input test (03 R98) -/

/-- A channel with its sums of the DC test cleared. -/
def Channel.clearSums (w : Channel) : Channel := { w with sumOn := 0, sumOff := 0, dcClip := false }

/-- The channels of a list with their sums of the DC test cleared, as DC_TEST_START leaves them. -/
def State.clearSums (s : State) (l : List Nat) : State := l.foldl (fun t c => t.setChan c (t.chan c).clearSums) s

theorem State.clearSums_rest (l : List Nat) : s.clearSums l = { s with chans := (s.clearSums l).chans } := by
  induction l generalizing s with
  | nil => rfl
  | cons c l ih => exact ih (s.setChan c (s.chan c).clearSums)

theorem State.chan_clearSums (l : List Nat) (c : Nat) :
    (s.clearSums l).chan c = if c ∈ l then (s.chan c).clearSums else s.chan c := by
  induction l generalizing s with
  | nil => rfl
  | cons d l ih =>
    have head : (s.clearSums (d :: l)).chan c = ((s.setChan d (s.chan d).clearSums).clearSums l).chan c := rfl
    rw [head, ih]
    by_cases hd : c = d
    · subst hd
      rw [State.chan_setChan_same, if_pos List.mem_cons_self]
      split <;> rfl
    · rw [State.chan_setChan_ne _ _ hd]
      simp only [List.mem_cons, hd, false_or]

theorem tabGet_of_not_mem {α : Type} (d : α) (t : Tab α) {k : Nat} (h : k ∉ t.map Prod.fst) : tabGet d t k = d := by
  induction t with
  | nil => rfl
  | cons e t ih =>
    rw [List.map_cons, List.mem_cons, not_or] at h
    exact (if_neg (Ne.symm h.1)).trans (ih h.2)

/-- With the sums of every listed channel cleared, those of every channel are: an unlisted one is as after reset. -/
theorem State.sums_clearSums (c : Nat) :
    let w := (s.clearSums (s.chans.map Prod.fst)).chan c
    w.sumOn = 0 ∧ w.sumOff = 0 ∧ w.dcClip = false := by
  dsimp only
  rw [State.chan_clearSums]
  split
  · exact ⟨rfl, rfl, rfl⟩
  · next h =>
    have unlisted : s.chan c = Channel.init := tabGet_of_not_mem _ _ h
    rw [unlisted]
    exact ⟨rfl, rfl, rfl⟩

end

/-! ### Settings, the test current and sources -/

/-- Settles O22: what a write of FE_CHc comes to is `State.pathWrite_feCh`, the channels that DC_TEST_START leaves are those of
`State.clearSums`, and the other two rows are one record update each. -/
theorem frontEndSettingsAndSources : Obligations.FrontEndSettingsAndSources := by
  refine ⟨?_, ?_, ?_, ?_⟩
  · intro p ch v s reaches
    have hc : ch % 512 < 512 := Nat.mod_lt _ (by decide)
    have write := State.pathWrite_feCh hc reaches v
    refine ⟨_, congrArg Host.Outcome.next write, ⟨feChRow, regRow_feCh hc, ?_⟩, ?_, ?_, ?_, ?_, ?_⟩
    · exact State.reg_setReg_same _ _ _
    · rw [State.chan_setChan_same]
    · intro c
      cases p <;> rfl
    · intro c hne
      rw [State.chan_setChan_ne _ _ hne]
      cases p <;> rfl
    · intro a ha
      refine (State.reg_setReg_ne _ _ (List.ne_of_not_mem_cons ha)).trans ?_
      cases p <;> rfl
    · cases p <;> rfl
  · intro s sampling cross enabled once
    obtain ⟨t, ht⟩ : ∃ t, s.clearSums (s.chans.map Prod.fst) = t := ⟨_, rfl⟩
    have rest : t = { s with chans := t.chans } := ht ▸ s.clearSums_rest _
    have start : exec .dcTestStart s = .next { t with
        time := { t.time with testOnAt := some t.time.now }
        dcTest := { t.dcTest with begun := true, current := true, startX := t.time.xcount } } :=
      ht ▸ whenDue_of_due (by simp [sampling, cross, enabled, once])
    refine ⟨_, start, ?_, ht ▸ s.sums_clearSums, ?_⟩
    · rw [rest]
    · rw [rest]
  · intro s cross begun current
    exact ⟨_, whenDue_of_due (by simp [cross, begun, current]), rfl⟩
  · intro i s hi out width ends
    refine ⟨_, whenDue_of_due (by simp [hi, out, width, ends]), ?_, ?_, fun j hj => s.src_setSrc_ne _ hj, rfl⟩
    · rw [State.src_setSrc_same]
    · rw [State.src_setSrc_same]

end Sys2Proof.Machine

/-!
PROOFS. Backsight (04): the ends of offline phases, pedestal updates, faults of converters, the saving of the temperature
sets, and the runs that CAL_RUN asks for (O23).
-/

namespace Sys2Proof.Machine

open Sys2Proof

section

variable (s : State)

/-! ### The end of an offline phase (04 R110, R114, R118) -/

/-- A slice that has loaded the GAIN of a measurement that passes. -/
def Slice.fitted (v : Slice) (sums : List Nat) : Slice :=
  { v with
    measGain := v.measGain + (newGain sums v.gain - v.gain), gain := newGain sums v.gain
    gainRun := if atEnd 12 (newGain sums v.gain) then v.gainRun + 1 else 0 }

@[simp] theorem State.stn_setSlice (n i : Nat) (w : Slice) : (s.setSlice n w).stn i = s.stn i := rfl

@[simp] theorem State.slice_setStn (i n : Nat) (q : Station) : (s.setStn i q).slice n = s.slice n := rfl

/-- A trim is noted in its channel only. -/
theorem State.noteTrim_rest (st j x : Nat) : s.noteTrim st j x = { s with chans := (s.noteTrim st j x).chans } := by
  unfold State.noteTrim
  split
  · rfl
  · rfl

@[simp] theorem State.slice_noteTrim (st j x n : Nat) : (s.noteTrim st j x).slice n = s.slice n := by
  rw [s.noteTrim_rest]
  rfl

@[simp] theorem State.stn_noteTrim (st j x i : Nat) : (s.noteTrim st j x).stn i = s.stn i := by
  rw [s.noteTrim_rest]
  rfl

/-- A measurement that passes loads the slice that the step is about, and the station waits for the exit. -/
theorem State.offlineEnd_of_pass {st j : Nat} {b : CalJob} {sums : List Nat} (keeps : b.discard = false)
    (step : b.step = .visit j ∨ b.step = .selfCal ∧ j = 32)
    (pass : levelsPass sums (s.slice (sliceNo st j)).gain = true) :
    s.offlineEnd st b sums =
      ((s.setStn st { s.stn st with job := some { b with offlineDone := true, phase := .exitWait } }).setSlice
        (sliceNo st j) ((s.slice (sliceNo st j)).fitted sums)).noteTrim st j s.time.xcount := by
  unfold State.offlineEnd
  rw [if_neg (by simp [keeps])]
  rcases step with step | ⟨step, rfl⟩
  · rw [step]
    exact if_pos pass
  · rw [step]
    exact if_pos pass

/-- An offline phase, of a visit or of the spare, that has run its time ends. -/
theorem execOfflinePhaseEnd_of_due {s : State} {st : Nat} {sums : List Nat} {b : CalJob} (job : (s.stn st).job = some b)
    (hst : st < 32) (len : sums.length = 16) (running : b.offlineDone = false)
    (phase : b.phase = .offline ∨ b.phase = .selfCalibrating) (ends : b.ends ≤ s.time.xcount) :
    exec (.offlinePhaseEnd st sums) s = .next (s.offlineEnd st b sums) := by
  show execOfflinePhaseEnd st sums s = _
  unfold execOfflinePhaseEnd
  rw [job]
  exact whenDue_of_due (by simp [hst, len, running, phase, ends])

/-! ### Pedestals and offset equalisation (04 R120) -/

/-- A trim's limit sets TRIM_LIMIT at most. -/
theorem State.limitTrim_eq (w : Nat) (v : Int) :
    (s.limitTrim w v).2 = s ∨ (s.limitTrim w v).2 = s.event Reg.calStat 2 := by
  unfold State.limitTrim
  dsimp only
  split
  · exact .inr rfl
  · exact .inl rfl

theorem State.limitTrim_rest (w : Nat) (v : Int) :
    (s.limitTrim w v).2 = { s with regs := (s.limitTrim w v).2.regs } := by
  rcases s.limitTrim_eq w v with h | h
  · rw [h]
  · rw [h]
    rfl

theorem State.limitTrim_sameRegs (w : Nat) (v : Int) : SameRegs [Reg.calStat] s (s.limitTrim w v).2 := by
  intro a ha
  rcases s.limitTrim_eq w v with h | h
  · rw [h]
  · rw [h]
    exact s.reg_event_ne 2 (List.ne_of_not_mem_cons ha)

/-- OFFS moved `d` steps of 1/8 down, limited to 4 steps and to the trim's range: the value it comes to. -/
def Slice.movedOffs (v : Slice) (d : Int) : Int := clampI (-256) 255 (v.app 0 - clampI (-4) 4 d)

/-- A slice after such a move. -/
def Slice.equalised (v : Slice) (d : Int) : Slice :=
  { v with
    measOffs := v.measOffs + (v.movedOffs d - v.app 0)
    limitRun := if atEnd 9 (v.movedOffs d) then v.limitRun + 1 else 0 }

theorem Slice.app_equalised (v : Slice) (d : Int) : (v.equalised d).app 0 = v.movedOffs d := by
  have moved : (v.equalised d).app 0 = v.measOffs + (v.movedOffs d - v.app 0) + v.shift.1 := rfl
  have present : v.app 0 = v.measOffs + v.shift.1 := rfl
  rw [moved, present]
  omega

/-- An OFFS inside its range starts the count of R132 anew. -/
theorem Slice.limitRun_equalised {v : Slice} {d : Int} (low : -256 < v.movedOffs d) (high : v.movedOffs d < 255) :
    (v.equalised d).limitRun = 0 := by
  refine if_neg ?_
  simp only [atEnd, Bool.or_eq_true, beq_iff_eq]
  omega

theorem clampI_eq_max_min {lo hi : Int} (h : lo ≤ hi) (a : Int) : clampI lo hi a = max lo (min hi a) := by
  unfold clampI
  split
  · omega
  · split <;> omega

/-- A channel whose PED64 has been computed from both parity sums, which start anew. -/
def Channel.pedestalTaken (w : Channel) (orbit : Nat) : Channel :=
  { w with
    ped64 := { w.ped64 with
      meas := roundHalfOut (16 * ((w.evenSum + w.oddSum : Nat) : Int)) (w.evenCnt + w.oddCnt) }
    evenSum := 0, evenCnt := 0, oddSum := 0, oddCnt := 0, pedFrom := orbit }

/-- Eight times the difference of the odd slice's mean and the even slice's, rounded: the steps of OFFS that R120 asks for. -/
def Channel.oddExcess (w : Channel) : Int :=
  roundHalfOut (8 * ((w.oddSum : Int) * w.evenCnt - (w.evenSum : Int) * w.oddCnt)) (w.evenCnt * w.oddCnt)

/-- The number of the slice that delivers a channel's odd samples. -/
def State.oddSlice (c : Nat) : Nat := sliceNo (c / 16) (s.oddConverter c)

/-- A pedestal update changes its channel and its odd slice, and may set TRIM_LIMIT. -/
theorem State.pedestal_eq (c : Nat) :
    s.pedestal c =
      ((s.setChan c ((s.chan c).pedestalTaken s.time.orbitNo)).limitTrim 9
        ((s.slice (s.oddSlice c)).app 0 - clampI (-4) 4 (s.chan c).oddExcess)).2.setSlice (s.oddSlice c)
          ((s.slice (s.oddSlice c)).equalised (s.chan c).oddExcess) := by
  have excess : (s.chan c).oddExcess =
      roundHalfOut (8 * (((s.chan c).oddSum * (s.chan c).evenCnt : Nat) : Int) -
        8 * (((s.chan c).evenSum * (s.chan c).oddCnt : Nat) : Int)) ((s.chan c).evenCnt * (s.chan c).oddCnt) := by
    unfold Channel.oddExcess
    congr 1
    rw [Int.mul_sub, Int.natCast_mul, Int.natCast_mul]
  rw [excess]
  rfl

theorem State.chan_pedestal_same (c : Nat) : (s.pedestal c).chan c = (s.chan c).pedestalTaken s.time.orbitNo := by
  rw [s.pedestal_eq, State.limitTrim_rest]
  exact s.chan_setChan_same c _

theorem State.chan_pedestal_ne {c m : Nat} (h : m ≠ c) : (s.pedestal c).chan m = s.chan m := by
  rw [s.pedestal_eq, State.limitTrim_rest]
  exact s.chan_setChan_ne _ h

theorem State.slice_pedestal_same (c : Nat) :
    (s.pedestal c).slice (s.oddSlice c) = (s.slice (s.oddSlice c)).equalised (s.chan c).oddExcess := by
  rw [s.pedestal_eq, State.slice_setSlice_same]

theorem State.slice_pedestal_ne {c n : Nat} (h : n ≠ s.oddSlice c) : (s.pedestal c).slice n = s.slice n := by
  rw [s.pedestal_eq, State.slice_setSlice_ne _ _ h, State.limitTrim_rest]
  rfl

theorem State.pedestal_sameRegs (c : Nat) : SameRegs [Reg.calStat] s (s.pedestal c) := by
  rw [s.pedestal_eq]
  exact (s.setChan c _).limitTrim_sameRegs 9 _

theorem State.pedestal_rest (c : Nat) :
    s.pedestal c =
      { s with chans := (s.pedestal c).chans, slices := (s.pedestal c).slices, regs := (s.pedestal c).regs } := by
  rw [s.pedestal_eq, State.limitTrim_rest]
  rfl

theorem execPedestalUpdate_of_due {s : State} {c : Nat} (hc : c < 512)
    (orbits : (s.chan c).pedFrom + s.fld1 Reg.calAge 7 0 ≤ s.time.orbitNo) (even : 256 ≤ (s.chan c).evenCnt)
    (odd : 256 ≤ (s.chan c).oddCnt) : exec (.pedestalUpdate c) s = .next (s.pedestal c) :=
  whenDue_of_due (by simp [hc, orbits, even, odd])

/-! ### What follows a fault and leaves its record alone (04 R132 to R136) -/

/-- `t` is `s` with the faults it knows of kept: no converter's mark, no station's count and nothing of the fault's record
differs, and CAL_STAT's events stay set. -/
structure KeepsFaults (s t : State) : Prop where
  faulty : ∀ n, (t.slice n).faulty = (s.slice n).faulty
  failed : ∀ i, (t.stn i).failed = (s.stn i).failed
  info : t.reg Reg.calFaultInfo = s.reg Reg.calFaultInfo
  events : ∀ b, bit (s.reg Reg.calStat) b = true → bit (t.reg Reg.calStat) b = true
  rest : t = { s with chans := t.chans, slices := t.slices, stations := t.stations, power := t.power, regs := t.regs }

/-- Bits that are set stay set when others are. -/
theorem bit_or_left {u : Word} {b : Nat} (h : bit u b = true) (v : Word) : bit (u ||| v) b = true := by
  unfold bit at *
  rw [BitVec.getLsbD_or, h, Bool.true_or]

theorem bit_or_right (u : Word) {v : Word} {b : Nat} (h : bit v b = true) : bit (u ||| v) b = true := by
  unfold bit at *
  rw [BitVec.getLsbD_or, h, Bool.or_true]

namespace KeepsFaults

variable {s t u : State}

theorem refl (s : State) : KeepsFaults s s := ⟨fun _ => rfl, fun _ => rfl, rfl, fun _ h => h, rfl⟩

theorem trans (hst : KeepsFaults s t) (htu : KeepsFaults t u) : KeepsFaults s u where
  faulty n := (htu.faulty n).trans (hst.faulty n)
  failed i := (htu.failed i).trans (hst.failed i)
  info := htu.info.trans hst.info
  events b h := htu.events b (hst.events b h)
  rest := htu.rest.trans (by rw [hst.rest])

theorem setChan (s : State) (c : Nat) (w : Channel) : KeepsFaults s (s.setChan c w) :=
  ⟨fun _ => rfl, fun _ => rfl, rfl, fun _ h => h, rfl⟩

theorem setSlice (s : State) {n : Nat} {w : Slice} (hw : w.faulty = (s.slice n).faulty) : KeepsFaults s (s.setSlice n w) where
  faulty m := by
    by_cases h : m = n
    · rw [h, State.slice_setSlice_same, hw]
    · rw [State.slice_setSlice_ne _ _ h]
  failed _ := rfl
  info := rfl
  events _ h := h
  rest := rfl

theorem setStn (s : State) {i : Nat} {q : Station} (hq : q.failed = (s.stn i).failed) : KeepsFaults s (s.setStn i q) where
  faulty _ := rfl
  failed m := by
    by_cases h : m = i
    · rw [h, State.stn_setStn_same, hq]
    · rw [State.stn_setStn_ne _ _ h]
  info := rfl
  events _ h := h
  rest := rfl

theorem power (s : State) (p : PowerState) : KeepsFaults s { s with power := p } :=
  ⟨fun _ => rfl, fun _ => rfl, rfl, fun _ h => h, rfl⟩

theorem event (s : State) (k : Nat) : KeepsFaults s (s.event Reg.calStat k) where
  faulty _ := rfl
  failed _ := rfl
  info := s.reg_event_ne k (by decide)
  events b h := by
    rw [State.reg_event_same]
    exact bit_or_left h _
  rest := rfl

theorem setReg (s : State) {a : Nat} (w : Word) (stat : a ≠ Reg.calStat) (info : a ≠ Reg.calFaultInfo) :
    KeepsFaults s (s.setReg a w) where
  faulty _ := rfl
  failed _ := rfl
  info := s.reg_setReg_ne w info.symm
  events b hb := by
    rw [s.reg_setReg_ne w stat.symm]
    exact hb
  rest := rfl

end KeepsFaults

theorem State.enterRun_keepsFaults : KeepsFaults s s.enterRun :=
  (KeepsFaults.power s _).trans (.setReg _ _ (by decide) (by decide))

theorem State.enterJoin_keepsFaults : KeepsFaults s s.enterJoin := by
  unfold State.enterJoin
  split
  · split
    · exact s.enterRun_keepsFaults
    · exact .power s _
  · exact s.enterRun_keepsFaults

theorem State.tryCalEnd_keepsFaults : KeepsFaults s s.tryCalEnd := by
  unfold State.tryCalEnd
  split
  · exact s.enterJoin_keepsFaults
  · exact .refl s

theorem State.stopBacksight_keepsFaults (st : Nat) : KeepsFaults s (s.stopBacksight st) := by
  unfold State.stopBacksight
  refine ((KeepsFaults.setStn s ?_).trans (.power _ _)).trans (State.tryCalEnd_keepsFaults _)
  rfl

theorem State.noteTrim_keepsFaults (st j x : Nat) : KeepsFaults s (s.noteTrim st j x) := by
  unfold State.noteTrim
  split
  · exact .setChan s _ _
  · exact .refl s

theorem State.returnVisited_keepsFaults (st x : Nat) : KeepsFaults s (s.returnVisited st x) := by
  unfold State.returnVisited
  split
  · refine (KeepsFaults.setSlice s ?_).trans (State.noteTrim_keepsFaults _ _ _ _)
    rfl
  · exact .refl s

theorem State.loseSlice_keepsFaults (st j x : Nat) : KeepsFaults s (s.loseSlice st j x) := by
  have lost : KeepsFaults s (s.setSlice (sliceNo st j) { s.slice (sliceNo st j) with lostFrom := some x }) :=
    .setSlice s rfl
  unfold State.loseSlice
  dsimp only
  generalize (if j % 2 = 0 then j + 1 else j - 1) = mate
  split
  · exact lost.trans (.event _ 5)
  · exact lost.trans (.setStn _ rfl)

/-! ### A converter is marked faulty and recorded (04 R133 to R136) -/

/-- Converter `j` of station `st` has been marked faulty, counted and recorded with SLICE_FAULT's event. -/
structure FaultRecorded (st j : Nat) (s t : State) : Prop where
  faulty : (t.slice (sliceNo st j)).faulty = true
  failed : (t.stn st).failed = min 31 ((s.stn st).failed + 1)
  event : bit (t.reg Reg.calStat) 4 = true
  info : bits (t.reg Reg.calFaultInfo) 5 0 = j
  rest : t = { s with chans := t.chans, slices := t.slices, stations := t.stations, power := t.power, regs := t.regs }

theorem FaultRecorded.keeps {st j : Nat} {s t u : State} (h : FaultRecorded st j s t) (k : KeepsFaults t u) :
    FaultRecorded st j s u where
  faulty := (k.faulty _).trans h.faulty
  failed := (k.failed _).trans h.failed
  event := k.events 4 h.event
  info := by rw [k.info, h.info]
  rest := k.rest.trans (by rw [h.rest])

/-- CAL_FAULT_INFO of a fault: the station from bit 8 on, and the converter (04 R136). -/
def faultInfo (st j : Nat) : Word := place st 8 ||| place j 0

theorem bits_faultInfo (st : Nat) {j : Nat} (hj : j < 64) : bits (faultInfo st j) 5 0 = j := by
  have high : (st <<< 8 % 2 ^ 32) % 2 ^ 6 = 0 := by
    rw [Nat.shiftLeft_eq]
    omega
  have low : (j <<< 0 % 2 ^ 32) % 2 ^ 6 = j := by
    rw [Nat.shiftLeft_zero]
    omega
  show ((place st 8 ||| place j 0).toNat >>> 0) % 2 ^ 6 = j
  rw [Nat.shiftRight_zero, BitVec.toNat_or, Nat.or_mod_two_pow, place, place, BitVec.toNat_ofNat, BitVec.toNat_ofNat, high,
    low, Nat.zero_or]

/-- The record sets the words of the two Datums, then names the converter and sets the event. -/
theorem State.recordFault_eq (st j x : Nat) :
    ∃ t, KeepsFaults s t ∧
      s.recordFault st j x = (t.setReg Reg.calFaultInfo (faultInfo st j)).event Reg.calStat 4 := by
  unfold State.recordFault
  refine ⟨_, ?_, rfl⟩
  exact (((KeepsFaults.setReg s _ (by decide) (by decide)).trans (.setReg _ _ (by decide) (by decide))).trans
    (.setReg _ _ (by decide) (by decide))).trans (.setReg _ _ (by decide) (by decide))

theorem State.recordFault_recorded (st x : Nat) {j : Nat} (hj : j < 64) :
    FaultRecorded st j s ((s.markFaulty st j).recordFault st j x) := by
  obtain ⟨t, keeps, h⟩ := (s.markFaulty st j).recordFault_eq st j x
  rw [h]
  refine ⟨?_, ?_, ?_, ?_, ?_⟩
  · exact (keeps.faulty _).trans (congrArg Slice.faulty (State.slice_setSlice_same _ _ _))
  · exact (keeps.failed _).trans (congrArg Station.failed (State.stn_setStn_same _ _ _))
  · rw [State.reg_event_same]
    exact bit_or_right _ (by decide)
  · rw [State.reg_event_ne _ 4 (by decide), State.reg_setReg_same, bits_faultInfo st hj]
  · rw [keeps.rest]
    rfl

theorem State.spareFaulty_recorded (st : Nat) : FaultRecorded st 32 s (s.spareFaulty st) := by
  have recorded (x : Nat) := (s.recordFault_recorded st x (j := 32) (by decide)).keeps
    (.setStn _ (q := { ((s.markFaulty st 32).recordFault st 32 x).stn st with spareFault := true }) rfl)
  unfold State.spareFaulty
  dsimp only
  split
  · exact (recorded _).keeps (State.loseSlice_keepsFaults _ _ _ _)
  · exact (recorded _).keeps ((State.returnVisited_keepsFaults _ _ _).trans (State.stopBacksight_keepsFaults _ _))

theorem State.faultInService_recorded (st : Nat) {j : Nat} (hj : j < 64) : FaultRecorded st j s (s.faultInService st j) := by
  have recorded := s.recordFault_recorded st (s.time.xcount + 2) hj
  unfold State.faultInService
  dsimp only
  split
  · exact recorded.keeps (State.loseSlice_keepsFaults _ _ _ _)
  · refine recorded.keeps (((State.returnVisited_keepsFaults _ _ _).trans (.setStn _ ?_)).trans
      (State.stopBacksight_keepsFaults _ _))
    rfl

/-- SLICE_FAULT of a converter that meets R132 records it, the spare or another one. -/
theorem execSliceFault_of_bad {s : State} {st j : Nat} (hst : st < 32) (hj : j < 33) (bad : s.converterBad st j = true) :
    ∃ t, exec (.sliceFault st j) s = .next t ∧ FaultRecorded st j s t := by
  refine ⟨_, whenDue_of_due (by simp [hst, hj, bad]), ?_⟩
  split
  · next spare => exact spare ▸ s.spareFaulty_recorded st
  · exact s.faultInService_recorded st (by omega)

/-! ### Saving the temperature sets (04 R128) -/

theorem upto_eq_range' (a n : Nat) : upto a n = List.range' a n := by
  induction n generalizing a with
  | zero => rfl
  | succ n ih => rw [upto, ih, List.range'_succ]

theorem mem_upto_zero {n j : Nat} : j ∈ upto 0 n ↔ j < n := by
  rw [upto_eq_range', List.mem_range'_1]
  omega

/-- A channel with sets has its entry in the settings area. -/
theorem State.mem_saveSets {c : Nat} (hc : c < 512) (held : (s.chan c).sets ≠ []) :
    (c, CalSave.mk (s.chan c).sets (s.chanMeas c)) ∈ s.saveSets.fw.settings.sets := by
  refine List.mem_append_left _ (List.mem_filterMap.2 ⟨c, mem_upto_zero.2 hc, ?_⟩)
  exact if_neg (by simp [held])

/-- A channel without sets has none: the entries of channels are of those with sets, and the spares' stand from 512 on. -/
theorem State.ne_of_mem_saveSets {c : Nat} (hc : c < 512) (empty : (s.chan c).sets = []) {e : Nat × CalSave}
    (he : e ∈ s.saveSets.fw.settings.sets) : e.1 ≠ c := by
  rintro rfl
  rcases List.mem_append.1 he with he | he
  · obtain ⟨c, -, entry⟩ := List.mem_filterMap.1 he
    split at entry
    · cases entry
    · next held =>
      cases entry
      exact held (by simp [empty])
  · obtain ⟨j, -, entry⟩ := List.mem_filterMap.1 he
    split at entry
    · cases entry
    · cases entry
      omega

theorem State.saveSets_sameRegs : SameRegs [Reg.calStat] s s.saveSets := fun _ ha =>
  State.reg_event_ne _ 0 (List.ne_of_not_mem_cons ha)

/-- SAVED is set, and the other events of CAL_STAT stay. -/
theorem State.saveSets_eventSet : EventSet Reg.calStat 0 s s.saveSets := State.reg_event_same _ _ _

theorem State.bit_saved_saveSets : bit (s.saveSets.reg Reg.calStat) 0 = true := by
  rw [show s.saveSets.reg Reg.calStat = _ from s.saveSets_eventSet]
  exact bit_or_right _ (by decide)

theorem execTempSetsSave_of_due {s : State} (up : s.backsightUp = true)
    (due : ∀ a, s.time.saveAt = some a → 600 * 10 ^ 12 * 2 ^ 24 ≤ (s.time.now - a) * s.period) :
    exec .tempSetsSave s = .next s.saveSets := by
  refine whenDue_of_due ?_
  rw [up, Bool.true_and]
  split
  · next a last => exact decide_eq_true (due a last)
  · rfl

theorem execTempSetsSave_of_early {s : State} {a : Nat} (last : s.time.saveAt = some a)
    (early : (s.time.now - a) * s.period < 600 * 10 ^ 12 * 2 ^ 24) : exec .tempSetsSave s = .next s := by
  show execTempSetsSave s = _
  unfold execTempSetsSave
  rw [last]
  dsimp only
  rw [decide_eq_false (Nat.not_le.2 early), Bool.and_false, whenDue_false]

/-! ### Writes of the CAL_ page (04 Table 4.6, 17 R466) -/

/-- A write of a plain CAL_ register that selects nothing, where it reaches the register, ends the path's arm, sets the word
and starts what the page says. -/
theorem State.pathWrite_cal {s : State} {p : Path} {a : Nat} (h : Reaches s p a)
    (plain : ∃ r, regRow a = some r ∧ r.kind = .plain ∧ r.inst = .none) (page : a / 0x1000 = 4) (sel : a ≠ Reg.calSel)
    (skewSel : a ≠ Reg.calSpareSkewSel) (v : Word) :
    ∃ w, s.pathWrite p a v = ((s.disarm p).setReg a w).actCal a v := by
  obtain ⟨served, unlocked⟩ := h
  obtain ⟨r, row, kind, inst⟩ := plain
  have unlocked' : (s.disarm p).pageLocked (a / 0x1000) = false := by
    rw [← unlocked]
    cases p <;> rfl
  have select : ((s.disarm p).path p).select a v = none := by
    unfold PathState.select
    rw [if_neg (by simp only [Reg.topPathStat]; omega), if_neg sel, if_neg skewSel, if_neg (by simp only [Reg.stnSel]; omega),
      if_neg (by simp only [Reg.trgCtrSel]; omega), if_neg (by simp only [Reg.memWinAddr]; omega),
      if_neg (by simp only [Reg.memBankSel]; omega)]
  have window : memWindow a = none := if_neg (by simp only [Reg.memWinPlain]; omega)
  have accepted : (s.disarm p).writeRefused p a v = false := by
    unfold State.writeRefused shareClass
    rw [if_neg (by simp only [Reg.timeOrbitNext]; omega), if_neg (by simp only [Reg.trgWin]; omega),
      if_neg (by simp only [Reg.trgTrvState]; omega), if_neg (by simp only [Reg.trgCtrW]; omega),
      arrIdx_of_lt (by simp only [Reg.splShare]; omega)]
  refine ⟨r.stored ((s.disarm p).reg a) v, ?_⟩
  unfold State.pathWrite State.writeReg
  rw [if_pos served, row]
  dsimp only
  rw [if_neg (by simp only [Reg.topUnlock]; omega), if_neg (by simp [unlocked']), if_neg (by simp only [Reg.topLock]; omega)]
  unfold State.writeMapped
  rw [kind]
  dsimp only
  unfold State.writePlain
  rw [select, window, accepted, inst, arrIdx_of_lt (by simp only [Reg.ctlCfg]; omega)]
  show State.writeActs _ p a _ v = _
  unfold State.writeActs
  rw [page]
  rfl

/-- A write of CAL_CTL with SAVE = 1 saves the temperature sets at once. -/
theorem State.pathWrite_calCtl_save {s : State} {p : Path} (h : Reaches s p Reg.calCtl) (v : Word) :
    ∃ w, s.pathWrite p Reg.calCtl (v ||| bitAt 2 true) = ((s.disarm p).setReg Reg.calCtl w).saveSets := by
  obtain ⟨w, hw⟩ := State.pathWrite_cal h ⟨_, rfl, rfl, rfl⟩ rfl (by decide) (by decide) (v ||| bitAt 2 true)
  exact ⟨w, hw.trans (if_pos (bit_or_right v (by decide)))⟩

/-! ### Calibration runs that CAL_RUN asks for (04 R129) -/

/-- A run is requested in station `j` where the word names it and its Backsight has not stopped. -/
def State.requestRun (v : Word) (j : Nat) : State :=
  if bit v j && (s.stn j).st != 3 then s.setStn j { s.stn j with runReq := true } else s

/-- The same for the stations of a list, in order. -/
def State.requestRuns (v : Word) (l : List Nat) : State := l.foldl (fun t j => t.requestRun v j) s

/-- A station after a word that asks it for a run or not: one whose Backsight has stopped takes no request. -/
def Station.requested (q : Station) (asks : Bool) : Station :=
  { q with runReq := (asks && q.st != 3) || q.runReq }

/-- To ask twice is to ask once. -/
theorem Station.requested_requested (q : Station) (a b : Bool) : (q.requested a).requested b = q.requested (a || b) := by
  have asks : ((b && q.st != 3) || ((a && q.st != 3) || q.runReq)) = (((a || b) && q.st != 3) || q.runReq) := by
    rw [Bool.and_or_distrib_right, ← Bool.or_assoc, Bool.or_comm (b && _)]
  exact congrArg (fun r => { q with runReq := r }) asks

theorem State.stn_requestRun (v : Word) (j i : Nat) :
    (s.requestRun v j).stn i = (s.stn i).requested (decide (i = j) && bit v i) := by
  unfold State.requestRun Station.requested
  by_cases h : i = j
  · subst h
    cases asks : bit v i && (s.stn i).st != 3 with
    | true => rw [if_pos rfl, State.stn_setStn_same, decide_eq_true rfl, Bool.true_and, asks, Bool.true_or]
    | false => rw [if_neg Bool.false_ne_true, decide_eq_true rfl, Bool.true_and, asks, Bool.false_or]
  · rw [decide_eq_false h, Bool.false_and, Bool.false_and, Bool.false_or]
    split
    · rw [State.stn_setStn_ne _ _ h]
    · rfl

theorem State.stn_requestRuns (v : Word) (l : List Nat) (i : Nat) :
    (s.requestRuns v l).stn i = (s.stn i).requested (decide (i ∈ l) && bit v i) := by
  induction l generalizing s with
  | nil => rfl
  | cons j l ih =>
    have head : (s.requestRuns v (j :: l)).stn i = ((s.requestRun v j).requestRuns v l).stn i := rfl
    rw [head, ih, State.stn_requestRun, Station.requested_requested, ← Bool.and_or_distrib_right]
    simp only [List.mem_cons, Bool.decide_or]

theorem State.requestRuns_rest (v : Word) (l : List Nat) :
    s.requestRuns v l = { s with stations := (s.requestRuns v l).stations } := by
  induction l generalizing s with
  | nil => rfl
  | cons j l ih =>
    have one (q : Tab Station) : { s.requestRun v j with stations := q } = { s with stations := q } := by
      unfold State.requestRun
      split
      · rfl
      · rfl
    exact (ih (s.requestRun v j)).trans (one _)

theorem State.pathWrite_calRun {s : State} {p : Path} (h : Reaches s p Reg.calRun) (v : Word) :
    ∃ w, s.pathWrite p Reg.calRun v = ((s.disarm p).setReg Reg.calRun w).requestRuns v (upto 0 32) :=
  State.pathWrite_cal h ⟨_, rfl, rfl, rfl⟩ rfl (by decide) (by decide) v

end

/-! ### Measurements, records, saving and runs -/

/-- Settles O23: each row comes to one of the equations above, and its clause reads that state off. -/
theorem backsightMeasuresAndRecords : Obligations.BacksightMeasuresAndRecords := by
  refine ⟨?_, ?_, ?_, ?_, ?_, ?_, ?_, ?_, ?_⟩
  · intro st sums s b j job hst len running keeps step ends pass
    have phase : b.phase = .offline ∨ b.phase = .selfCalibrating := step.imp And.left And.left
    have about : b.step = .visit j ∨ b.step = .selfCal ∧ j = 32 := step.imp (·.2.1) And.right
    refine ⟨_, execOfflinePhaseEnd_of_due job hst len running phase ends, ?_⟩
    rw [s.offlineEnd_of_pass keeps about pass]
    refine ⟨?_, ?_, ?_, ?_, ?_, ?_⟩
    · rw [State.stn_noteTrim, State.stn_setSlice, State.stn_setStn_same]
    · rw [State.slice_noteTrim, State.slice_setSlice_same]
      rfl
    · rw [State.slice_noteTrim, State.slice_setSlice_same]
      rfl
    · intro n hn
      rw [State.slice_noteTrim, State.slice_setSlice_ne _ _ hn, State.slice_setStn]
    · intro i hi
      rw [State.stn_noteTrim, State.stn_setSlice, State.stn_setStn_ne _ _ hi]
    · rw [State.noteTrim_rest]
      rfl
  · intro ch s hch orbits even odd
    refine ⟨_, execPedestalUpdate_of_due hch orbits even odd, ?_⟩
    dsimp only
    rw [s.chan_pedestal_same ch]
    exact ⟨rfl, rfl, rfl, rfl, rfl, fun c hc => s.chan_pedestal_ne hc, s.pedestal_sameRegs ch,
      fun n hn => s.slice_pedestal_ne hn, s.pedestal_rest ch⟩
  · intro st j s hst hj bad
    obtain ⟨t, fault, recorded⟩ := execSliceFault_of_bad hst hj bad
    have rest := recorded.rest
    exact ⟨t, fault, recorded.faulty, recorded.failed, recorded.event, recorded.info, by rw [rest], by rw [rest], by rw [rest],
      by rw [rest], by rw [rest]⟩
  · intro s up never
    exact ⟨_, execTempSetsSave_of_due up (by simp [never]), fun c hc held => s.mem_saveSets hc held,
      fun c hc empty e he => s.ne_of_mem_saveSets hc empty he, s.saveSets_eventSet, s.saveSets_sameRegs, rfl, rfl, rfl⟩
  · intro p v s reaches
    obtain ⟨w, write⟩ := State.pathWrite_calCtl_save reaches v
    refine ⟨_, congrArg Host.Outcome.next write, by cases p <;> rfl, ?_, State.bit_saved_saveSets _, ?_, by cases p <;> rfl⟩
    · intro c hc held
      have saved := State.mem_saveSets ((s.disarm p).setReg Reg.calCtl w) hc (by cases p <;> exact held)
      cases p <;> exact saved
    · intro a ha
      rw [List.mem_cons, not_or] at ha
      obtain ⟨ctl, stat⟩ := ha
      rw [State.saveSets_sameRegs _ a stat, State.reg_setReg_ne _ _ ctl]
      cases p <;> rfl
  · intro p v s reaches
    obtain ⟨w, write⟩ := State.pathWrite_calRun reaches v
    have rest := State.requestRuns_rest ((s.disarm p).setReg Reg.calRun w) v (upto 0 32)
    refine ⟨_, congrArg Host.Outcome.next write, ?_, ?_, ?_⟩
    · intro j hj
      rw [State.stn_requestRuns, decide_eq_true (mem_upto_zero.2 hj), Bool.true_and]
      cases p <;> rfl
    · intro a ha
      rw [rest]
      refine (State.reg_setReg_ne _ _ (List.ne_of_not_mem_cons ha)).trans ?_
      cases p <;> rfl
    · rw [rest]
      cases p <;> rfl
  · intro ch s d n v hch orbits even odd hd hn hv
    have steps : d = (s.chan ch).oddExcess := hd
    have slice : (s.pedestal ch).slice n = v.equalised d := by
      rw [hv, hn, steps]
      exact s.slice_pedestal_same ch
    refine ⟨_, execPedestalUpdate_of_due hch orbits even odd, ?_⟩
    dsimp only
    rw [slice, Slice.app_equalised]
    refine ⟨?_, rfl, fun low high => Slice.limitRun_equalised low high⟩
    rw [Slice.movedOffs, clampI_eq_max_min (lo := -4) (by decide)]
  · intro s a up last due
    refine ⟨_, execTempSetsSave_of_due up ?_, fun c hc held => s.mem_saveSets hc held, s.bit_saved_saveSets,
      s.saveSets_sameRegs, rfl, rfl⟩
    intro a' last'
    rw [last] at last'
    cases last'
    exact due
  · intro s a last early
    exact execTempSetsSave_of_early last early

end Sys2Proof.Machine

/-!
PROOFS. The filter chain (05): staged words and APPLY, the application in the gap, the outputs of a channel, and the ends of
detector windows (O24).
-/

namespace Sys2Proof.Machine

open Sys2Proof

section

variable (s : State)

/-! ### Writes of plain registers, and of the STN_ page (17 R466, 05 R153) -/

/-- A write of a plain register that selects nothing, opens no window, is not refused and configures no ring, where it reaches
the register, ends the path's arm, stores the word and starts what its page says. -/
theorem State.pathWrite_plain {s : State} {p : Path} {a : Nat} {r : RegRow} {v : Word} (h : Reaches s p a)
    (row : regRow a = some r) (kind : r.kind = .plain) (unlock : a ≠ Reg.topUnlock) (lock : a ≠ Reg.topLock)
    (select : ((s.disarm p).path p).select a v = none) (window : memWindow a = none)
    (accepted : (s.disarm p).writeRefused p a v = false) (noRing : arrIdx a (Reg.ctlCfg 0) 64 32 = none) :
    s.pathWrite p a v =
      ((s.disarm p).setReg (regKey a (s.instOf p r.inst)) (r.stored (s.reg (regKey a (s.instOf p r.inst))) v)).writeActs p a
        (s.reg (regKey a (s.instOf p r.inst))) v := by
  obtain ⟨served, unlocked⟩ := h
  have unlocked' : (s.disarm p).pageLocked (a / 0x1000) = false := by
    rw [← unlocked]
    cases p <;> rfl
  have inst : (s.disarm p).instOf p r.inst = s.instOf p r.inst := by
    cases r.inst <;> cases p <;> rfl
  have old (k : Nat) : (s.disarm p).reg k = s.reg k := by
    cases p <;> rfl
  unfold State.pathWrite State.writeReg
  rw [if_pos served, row]
  dsimp only
  rw [if_neg unlock, if_neg (by simp [unlocked']), if_neg lock]
  unfold State.writeMapped
  rw [kind]
  dsimp only
  unfold State.writePlain
  rw [select, window, accepted, noRing]
  dsimp only
  rw [if_neg Bool.false_ne_true, inst, old]

/-- A write of a plain register of the STN_ page but STN_SEL goes to the selected station's copy. -/
theorem State.pathWrite_stn {s : State} {p : Path} {a : Nat} {r : RegRow} (h : Reaches s p a) (row : regRow a = some r)
    (kind : r.kind = .plain) (inst : r.inst = .station) (page : a / 0x1000 = 2) (sel : a ≠ Reg.stnSel) (v : Word) :
    s.pathWrite p a v =
      ((s.disarm p).setReg (regKey a (s.path p).stnSel) (r.stored (s.reg (regKey a (s.path p).stnSel)) v)).actStn p a v := by
  have select : ((s.disarm p).path p).select a v = none := by
    unfold PathState.select
    rw [if_neg (by simp only [Reg.topPathStat]; omega), if_neg (by simp only [Reg.calSel]; omega),
      if_neg (by simp only [Reg.calSpareSkewSel]; omega), if_neg sel, if_neg (by simp only [Reg.trgCtrSel]; omega),
      if_neg (by simp only [Reg.memWinAddr]; omega), if_neg (by simp only [Reg.memBankSel]; omega)]
  have accepted : (s.disarm p).writeRefused p a v = false := by
    unfold State.writeRefused shareClass
    rw [if_neg (by simp only [Reg.timeOrbitNext]; omega), if_neg (by simp only [Reg.trgWin]; omega),
      if_neg (by simp only [Reg.trgTrvState]; omega), if_neg (by simp only [Reg.trgCtrW]; omega),
      arrIdx_of_lt (by simp only [Reg.splShare]; omega)]
  rw [State.pathWrite_plain h row kind (by simp only [Reg.topUnlock]; omega) (by simp only [Reg.topLock]; omega) select
    (if_neg (by simp only [Reg.memWinPlain]; omega)) accepted (arrIdx_of_lt (by simp only [Reg.ctlCfg]; omega) _ _), inst]
  unfold State.writeActs
  rw [page]
  rfl

/-- Every staged word is a plain register of the STN_ page, one for each station, and neither STN_SEL nor STN_CTL. -/
theorem stnStagedAddrs_rows : ∀ a ∈ stnStagedAddrs, a / 0x1000 = 2 ∧ a ≠ Reg.stnSel ∧ a ≠ Reg.stnCtl ∧
    ((regRow a).any fun r => r.kind == .plain && r.inst == .station) = true := by
  decide +kernel

/-- A write of a staged word sets the word and sets nothing going. -/
theorem State.pathWrite_staged {s : State} {p : Path} {a : Nat} (staged : a ∈ stnStagedAddrs) (h : Reaches s p a) (v : Word) :
    ∃ r, regRow a = some r ∧ s.pathWrite p a v =
      (s.disarm p).setReg (regKey a (s.path p).stnSel) (r.stored (s.reg (regKey a (s.path p).stnSel)) v) := by
  obtain ⟨page, sel, ctl, rows⟩ := stnStagedAddrs_rows a staged
  obtain ⟨r, row, plain⟩ := (Option.any_eq_true _ _).1 rows
  rw [Bool.and_eq_true, beq_iff_eq, beq_iff_eq] at plain
  refine ⟨r, row, (State.pathWrite_stn h row plain.1 plain.2 page sel v).trans ?_⟩
  exact if_neg (by simp [ctl])

/-- APPLY opens an application of station `j` with the present crossing, unless one is open (05 R153). -/
def State.openApplication (j : Nat) : State :=
  if (s.stn j).applyAt.isNone then s.setStn j { s.stn j with applyAt := some s.time.now } else s

theorem State.applyAt_openApplication (j : Nat) :
    ((s.openApplication j).stn j).applyAt = some ((s.stn j).applyAt.getD s.time.now) := by
  cases h : (s.stn j).applyAt with
  | none => simp [State.openApplication, h]
  | some a => simp [State.openApplication, h]

theorem State.stn_openApplication_ne {j i : Nat} (h : i ≠ j) : (s.openApplication j).stn i = s.stn i := by
  unfold State.openApplication
  split
  · exact s.stn_setStn_ne _ h
  · rfl

theorem State.openApplication_rest (j : Nat) :
    s.openApplication j = { s with stations := (s.openApplication j).stations } := by
  unfold State.openApplication
  split
  · rfl
  · rfl

theorem State.pathWrite_stnCtl_apply {s : State} {p : Path} (h : Reaches s p Reg.stnCtl) (v : Word) :
    ∃ k w, s.pathWrite p Reg.stnCtl (v ||| bitAt 0 true) =
      ((s.disarm p).setReg k w).openApplication (s.path p).stnSel := by
  have set : bit (v ||| bitAt 0 true) 0 = true := bit_or_right v (by decide)
  rw [State.pathWrite_stn h rfl rfl rfl rfl (by decide)]
  unfold State.actStn State.openApplication
  rw [set]
  cases p <;> exact ⟨_, _, rfl⟩

/-! ### The application of a station's settings (05 R153 to R156) -/

/-- A fold whose every step writes channels only writes channels only. -/
theorem State.foldl_rest_of_chans {α : Type} {f : State → α → State}
    (one : ∀ t x, f t x = { t with chans := (f t x).chans }) (l : List α) :
    l.foldl f s = { s with chans := (l.foldl f s).chans } := by
  induction l generalizing s with
  | nil => rfl
  | cons x l ih =>
    have head (q : Tab Channel) : { f s x with chans := q } = { s with chans := q } :=
      congrArg (fun t : State => { t with chans := q }) (one s x)
    exact (ih (f s x)).trans (head _)

/-- The stored words of a list of keys are put into effect. -/
def State.takeEffect (l : List Nat) : State := l.foldl (fun t k => t.setEff k (t.reg k)) s

theorem State.takeEffect_rest (l : List Nat) : s.takeEffect l = { s with effRegs := (s.takeEffect l).effRegs } := by
  induction l generalizing s with
  | nil => rfl
  | cons k l ih => exact ih (s.setEff k (s.reg k))

theorem State.eff_takeEffect (l : List Nat) (k : Nat) :
    (s.takeEffect l).eff k = if k ∈ l then s.reg k else s.eff k := by
  induction l generalizing s with
  | nil => rfl
  | cons j l ih =>
    have head : (s.takeEffect (j :: l)).eff k = ((s.setEff j (s.reg j)).takeEffect l).eff k := rfl
    rw [head, ih]
    by_cases h : k = j
    · subst h
      rw [State.eff_setEff_same, if_pos List.mem_cons_self]
      exact ite_self _
    · rw [State.eff_setEff_ne _ _ h]
      simp only [List.mem_cons, h, false_or]
      rfl

/-- The keys of a station's staged words that an application changes. -/
def State.changedKeys (st : Nat) : List Nat :=
  (stnStagedAddrs.map fun a => regKey a st).filter fun k => s.reg k != s.eff k

/-- With the changed words put into effect, every staged word is. -/
theorem State.eff_takeEffect_changedKeys (st : Nat) {a : Nat} (staged : a ∈ stnStagedAddrs) :
    (s.takeEffect (s.changedKeys st)).eff (regKey a st) = s.reg (regKey a st) := by
  rw [State.eff_takeEffect]
  split
  · rfl
  · next same =>
    have key : regKey a st ∈ stnStagedAddrs.map fun a => regKey a st := List.mem_map_of_mem staged
    exact Decidable.byContradiction fun differs => same (List.mem_filter.2 ⟨key, bne_iff_ne.2 (Ne.symm differs)⟩)

/-- The record that a station keeps of an application: the values that it replaces, and its crossing. -/
def State.applied (st : Nat) : Station :=
  { s.stn st with
    fltOld := (s.changedKeys st).map fun k => (k, s.eff k)
    fltAt := s.time.xcount
    applyAt := none }

/-- But for the preloads of its channels, an application writes its station's record and puts the changed words into effect. -/
theorem State.applyFilter_eq (st : Nat) :
    s.applyFilter st =
      { (s.setStn st (s.applied st)).takeEffect (s.changedKeys st) with chans := (s.applyFilter st).chans } :=
  State.foldl_rest_of_chans _ (fun _ _ => rfl) _

theorem execFilterApplication_of_due {s : State} {st a : Nat} (opened : (s.stn st).applyAt = some a) (hst : st < 32)
    (sampling : s.time.sampling = true) (cross : s.time.cross = s.n - s.g + 12) (late : a + 20 ≤ s.time.now) :
    exec (.filterApplication st) s = .next (s.applyFilter st) := by
  refine whenDue_of_due ?_
  have due : s.filterDue st = true := by
    unfold State.filterDue
    rw [opened]
    simp [cross, late]
  simp [hst, sampling, due]

theorem execFilterApplication_of_not_due {s : State} {st : Nat}
    (h : st < 32 → s.time.sampling = true → s.filterDue st = false) : exec (.filterApplication st) s = .next s := by
  show whenDue s _ _ = _
  rw [show (st < 32 && s.time.sampling && s.filterDue st) = false from ?_, whenDue_false]
  by_cases hst : st < 32
  · cases sampling : s.time.sampling with
    | false => simp
    | true => simp [h hst sampling]
  · simp [hst]

theorem State.filterDue_of_not_opened {st : Nat} (h : (s.stn st).applyAt = none) : s.filterDue st = false := by
  unfold State.filterDue
  rw [h]

theorem State.filterDue_of_cross_ne {st : Nat} (h : s.time.cross ≠ s.n - s.g + 12) : s.filterDue st = false := by
  unfold State.filterDue
  split
  · simp [h]
  · rfl

theorem State.filterDue_of_too_late {st a : Nat} (opened : (s.stn st).applyAt = some a) (h : s.time.now < a + 20) :
    s.filterDue st = false := by
  unfold State.filterDue
  rw [opened]
  simp [h]

/-! ### The outputs of a channel (05 R150, R151) -/

@[simp] theorem State.chan_setStn (i c : Nat) (q : Station) : (s.setStn i q).chan c = s.chan c := rfl

/-- Channel `c` with one more output, the newest. -/
def State.putOutput (c : Nat) (o : Output) : State :=
  s.setChan c { s.chan c with outs := (o :: (s.chan c).outs).take outDepth }

/-- An output at label `x` as it is formed: not suppressed, and all 0 when the channel counts as disabled. -/
structure Output.FormedAt (x : Nat) (o : Output) : Prop where
  label : o.x = x
  unsuppressed : o.suppressed = false
  disabled : o.en = false → o.e = 0 ∧ o.t = 0 ∧ o.flags = 0

/-- A delivery puts one output in its channel, and may set SAT_EVT of its station. -/
theorem State.deliver_eq (c x : Nat) :
    ∃ o : Output, o.FormedAt x ∧ (s.deliver c x = s.putOutput c o ∨
      s.deliver c x = (s.putOutput c o).event (regKey Reg.stnStat (c / 16)) 2) := by
  unfold State.deliver
  extract_lets
  split
  · refine ⟨_, ?_, .inl rfl⟩
    exact ⟨rfl, rfl, fun _ => ⟨rfl, rfl, rfl⟩⟩
  · split
    extract_lets
    split
    · refine ⟨_, ?_, .inr rfl⟩
      exact ⟨rfl, rfl, nofun⟩
    · refine ⟨_, ?_, .inl rfl⟩
      exact ⟨rfl, rfl, nofun⟩

theorem State.putOutput_delivered (c : Nat) {o : Output} {t : State}
    (h : t = s.putOutput c o ∨ t = (s.putOutput c o).event (regKey Reg.stnStat (c / 16)) 2) :
    (t.chan c).outs = (o :: (s.chan c).outs).take outDepth ∧ (∀ m, m ≠ c → t.chan m = s.chan m) ∧
      SameRegs [regKey Reg.stnStat (c / 16)] s t ∧ t = { s with chans := t.chans, regs := t.regs } := by
  have outs : ((s.putOutput c o).chan c).outs = (o :: (s.chan c).outs).take outDepth :=
    congrArg Channel.outs (s.chan_setChan_same c _)
  have others (m : Nat) (hm : m ≠ c) : (s.putOutput c o).chan m = s.chan m := s.chan_setChan_ne _ hm
  rcases h with rfl | rfl
  · exact ⟨outs, others, fun _ _ => rfl, rfl⟩
  · exact ⟨outs, others, fun a ha => State.reg_event_ne _ 2 (List.ne_of_not_mem_cons ha), rfl⟩

theorem execFilterOutput_of_due {s : State} {ch x : Nat} (label : s.nextLabel ch = some x) (hch : ch < 512)
    (sampling : s.time.sampling = true) : exec (.filterOutput ch) s = .next (s.deliver ch x) := by
  show execFilterOutput ch s = _
  unfold execFilterOutput
  rw [label]
  exact whenDue_of_due (by simp [hch, sampling])

/-! ### Records of class 4 (06 R195, R199) -/

/-- `t` is `s` with records placed or discarded: registers, the FULL flags of the paths, the spool and its memory, and the
trigger's own counts may differ, and nothing else. -/
def KeepsChain (s t : State) : Prop :=
  t = { s with regs := t.regs, spi := t.spi, downlink := t.downlink, spool := t.spool, mem := t.mem, trig := t.trig }

namespace KeepsChain

variable {s t u : State}

theorem trans (hst : KeepsChain s t) (htu : KeepsChain t u) : KeepsChain s u :=
  Eq.trans htu (by rw [hst])

theorem allocMacro (s : State) (len : Nat) : KeepsChain s (s.allocMacro len).2 := by
  unfold State.allocMacro
  dsimp only
  split
  · exact rfl
  · split
    · exact rfl
    · exact rfl

theorem closePacket (s : State) (c : Nat) (flush : Bool) : KeepsChain s (s.closePacket c flush) := by
  unfold State.closePacket
  dsimp only
  split
  · exact rfl
  · exact (allocMacro s _).trans rfl

theorem appendOpen (s : State) (c : Nat) (bytes : List Byte) (start write : Bool) :
    KeepsChain s (s.appendOpen c bytes start write) := by
  unfold State.appendOpen
  dsimp only
  split
  · exact rfl
  · exact rfl

theorem placeRecord (s : State) (c : Nat) (bytes : List Byte) (start write : Bool) :
    KeepsChain s (s.placeRecord c bytes start write) := by
  unfold State.placeRecord
  split
  · exact appendOpen s c bytes start write
  · exact (closePacket s c false).trans (appendOpen _ c bytes start write)

/-- What a share takes is what was to be placed. -/
theorem tryShare {c res : Nat} {f : State → State} (hf : KeepsChain s (f s)) (h : s.tryShare c res f = some t) :
    KeepsChain s t := by
  unfold State.tryShare at h
  dsimp only at h
  split at h
  · cases h
    exact hf
  · cases h

theorem discardMonitor (s : State) (type x len datum : Nat) : KeepsChain s (s.discardMonitor type x len datum) := rfl

theorem placeMonitor (s : State) (rec : List Byte) (type x len datum : Nat) :
    KeepsChain s (s.placeMonitor rec type x len datum) := by
  unfold State.placeMonitor
  dsimp only
  split
  · next placed =>
    refine tryShare ?_ placed
    split
    · exact KeepsChain.trans (placeRecord { s with spool := { s.spool with monRun := none } } 4 _ true false)
        (placeRecord _ 4 rec true false)
    · exact placeRecord s 4 rec true false
  · exact KeepsChain.trans (t := s.gapFull 4) rfl (discardMonitor _ type x len datum)

theorem profileRecord (s : State) (st first : Nat) : KeepsChain s (s.profileRecord st first) := by
  unfold State.profileRecord
  dsimp only
  split
  · exact discardMonitor s _ _ _ _
  · exact placeMonitor s _ _ _ _ _

end KeepsChain

/-! ### The end of a detector window (05 R159 to R161) -/

/-- A channel's extremes have been posted, and its window starts anew. -/
structure WindowPosted (w v : Channel) : Prop where
  max : v.postMax = w.detMax.getD 0
  min : v.postMin = w.detMin.getD 0
  newMax : v.detMax = none
  newMin : v.detMin = none
  newCount : v.detCnt = 0

theorem State.chan_postDetector_same (c first : Nat) : WindowPosted (s.chan c) ((s.postDetector c first).chan c) := by
  unfold State.postDetector
  dsimp only
  rw [State.chan_setChan_same]
  exact ⟨rfl, rfl, rfl, rfl, rfl⟩

theorem State.chan_postDetector_ne {c m : Nat} (first : Nat) (h : m ≠ c) : (s.postDetector c first).chan m = s.chan m :=
  s.chan_setChan_ne _ h

/-- The detectors of a station's channels of a list are posted, in order. -/
def State.postDetectors (st first : Nat) (l : List Nat) : State :=
  l.foldl (fun t k => t.postDetector (16 * st + k) first) s

theorem State.postDetectors_rest (st first : Nat) (l : List Nat) :
    s.postDetectors st first l = { s with chans := (s.postDetectors st first l).chans } :=
  s.foldl_rest_of_chans (fun _ _ => rfl) l

theorem State.chan_postDetectors_of_not_mem (st first : Nat) {l : List Nat} {c : Nat} (h : ∀ k ∈ l, c ≠ 16 * st + k) :
    (s.postDetectors st first l).chan c = s.chan c := by
  induction l generalizing s with
  | nil => rfl
  | cons k l ih =>
    obtain ⟨head, tail⟩ := List.forall_mem_cons.1 h
    exact (ih (s.postDetector (16 * st + k) first) tail).trans (s.chan_postDetector_ne first head)

/-- Each channel of a list without repetitions is posted once. -/
theorem State.chan_postDetectors_of_mem (st first : Nat) {l : List Nat} (once : l.Nodup) {k : Nat} (hk : k ∈ l) :
    WindowPosted (s.chan (16 * st + k)) ((s.postDetectors st first l).chan (16 * st + k)) := by
  induction l generalizing s with
  | nil => cases hk
  | cons j l ih =>
    obtain ⟨notLater, later⟩ := List.nodup_cons.1 once
    show WindowPosted _ (((s.postDetector (16 * st + j) first).postDetectors st first l).chan (16 * st + k))
    rcases List.mem_cons.1 hk with rfl | hk
    · rw [State.chan_postDetectors_of_not_mem _ st first fun i hi same => notLater (by rwa [Nat.add_left_cancel same])]
      exact s.chan_postDetector_same _ first
    · have ne : 16 * st + k ≠ 16 * st + j := fun same => notLater (Nat.add_left_cancel same ▸ hk)
      rw [← s.chan_postDetector_ne first ne]
      exact ih _ later hk

/-- What the profile of a station does at a window's end: the window is counted, and each one of the profile's choice is recorded
(06 R196). -/
def State.profileWindow (st first : Nat) : State :=
  let n := (s.stn st).profCnt + 1
  let t := s.setStn st { s.stn st with profCnt := n }
  if n % t.fld1 Reg.trgProfDiv 15 0 = 0 then t.profileRecord st first else t

/-- The detector window of station `st` has ended: its 16 channels are posted, no other is touched, the window is noted, and time,
PIPE and the history store are as before. -/
structure WindowEnded (st : Nat) (s t : State) : Prop where
  posted : ∀ k, k < 16 → WindowPosted (s.chan (16 * st + k)) (t.chan (16 * st + k))
  others : ∀ c, c / 16 ≠ st → t.chan c = s.chan c
  noted : (t.stn st).detAt = some s.time.xcount
  pipe : t.pipe = s.pipe
  time : t.time = s.time
  hist : t.hist = s.hist

namespace WindowEnded

variable {st : Nat} {s t u : State}

/-- Records may be placed afterwards. -/
theorem keeps (h : WindowEnded st s t) (k : KeepsChain t u) : WindowEnded st s u := by
  have rest : u = _ := k
  have chan (c : Nat) : u.chan c = t.chan c := by rw [rest]; rfl
  refine ⟨fun k hk => chan _ ▸ h.posted k hk, fun c hc => (chan c).trans (h.others c hc), ?_, ?_, ?_, ?_⟩
  · rw [rest]; exact h.noted
  · rw [rest]; exact h.pipe
  · rw [rest]; exact h.time
  · rw [rest]; exact h.hist

/-- The station may change in what is not the note of its window. -/
theorem setStn (h : WindowEnded st s t) {q : Station} (hq : q.detAt = (t.stn st).detAt) : WindowEnded st s (t.setStn st q) where
  posted := h.posted
  others := h.others
  noted := by rw [State.stn_setStn_same, hq, h.noted]
  pipe := h.pipe
  time := h.time
  hist := h.hist

/-- The profile may record the window. -/
theorem profileWindow (h : WindowEnded st s t) (first : Nat) : WindowEnded st s (t.profileWindow st first) := by
  have counted := h.setStn (q := { t.stn st with profCnt := (t.stn st).profCnt + 1 }) rfl
  unfold State.profileWindow
  dsimp only
  split
  · exact counted.keeps (KeepsChain.profileRecord _ st first)
  · exact counted

end WindowEnded

/-- A station whose detectors have been posted at the end of a window, without the profile's records. -/
def State.endWindow (st : Nat) : State :=
  let t := s.postDetectors st (s.stn st).windowFrom (upto 0 16)
  t.setStn st { t.stn st with detAt := some s.time.xcount }

theorem State.endWindow_rest (st : Nat) :
    s.endWindow st = { s with chans := (s.endWindow st).chans, stations := (s.endWindow st).stations } := by
  have posted := s.postDetectors_rest st (s.stn st).windowFrom (upto 0 16)
  unfold State.endWindow
  generalize s.postDetectors st (s.stn st).windowFrom (upto 0 16) = t at posted ⊢
  rw [posted]
  rfl

theorem State.reg_endWindow (st a : Nat) : (s.endWindow st).reg a = s.reg a := by
  have regs : (s.endWindow st).regs = s.regs := by rw [s.endWindow_rest]
  exact congrArg (tabGet (regReset a) · a) regs

theorem State.chan_endWindow (st c : Nat) :
    (s.endWindow st).chan c = (s.postDetectors st (s.stn st).windowFrom (upto 0 16)).chan c := by
  unfold State.endWindow
  exact State.chan_setStn _ _ _ _

theorem State.endWindow_ended (st : Nat) : WindowEnded st s (s.endWindow st) := by
  have rest := s.endWindow_rest st
  refine ⟨fun k hk => ?_, fun c hc => ?_, ?_, by rw [rest], by rw [rest], by rw [rest]⟩
  · have once : (upto 0 16).Nodup := by rw [upto_eq_range']; exact List.nodup_range'
    rw [State.chan_endWindow]
    exact s.chan_postDetectors_of_mem st _ once (mem_upto_zero.2 hk)
  · rw [State.chan_endWindow]
    refine s.chan_postDetectors_of_not_mem st _ fun k hk => ?_
    have := mem_upto_zero.1 hk
    omega
  · unfold State.endWindow
    dsimp only
    rw [State.stn_setStn_same]

theorem State.detectorEnd_eq (st : Nat) :
    s.detectorEnd st = if bit ((s.endWindow st).reg Reg.trgProfEn) st then
      (s.endWindow st).profileWindow st (s.stn st).windowFrom else s.endWindow st := rfl

/-- With the station's profile off a window's end posts its detectors and no more. -/
theorem State.detectorEnd_of_unprofiled {st : Nat} (off : bit (s.reg Reg.trgProfEn) st = false) :
    s.detectorEnd st = s.endWindow st := by
  have off' : bit ((s.endWindow st).reg Reg.trgProfEn) st = false := by
    rw [s.reg_endWindow, off]
  rw [s.detectorEnd_eq, off', if_neg Bool.false_ne_true]

theorem State.detectorEnd_ended (st : Nat) : WindowEnded st s (s.detectorEnd st) := by
  rw [s.detectorEnd_eq]
  split
  · exact (s.endWindow_ended st).profileWindow _
  · exact s.endWindow_ended st

theorem execDetectorWindowEnd_of_due {s : State} {st : Nat} (hst : st < 32) (sampling : s.time.sampling = true)
    (last : (s.time.cross + 1) % 2 ^ s.detWin st = 0 ∨ s.time.cross + 1 = s.n) (once : (s.stn st).detAt ≠ some s.time.xcount) :
    exec (.detectorWindowEnd st) s = .next (s.detectorEnd st) := by
  refine whenDue_of_due ?_
  simp [hst, sampling, last, once]

end

/-! ### Settings, outputs and windows -/

/-- Settles O24: each row comes to one of the equations above, and its clause reads that state off. -/
theorem filterSettingsAndOutputs : Obligations.FilterSettingsAndOutputs := by
  refine ⟨?_, ?_, ?_, ?_, ?_, ?_, ?_⟩
  · intro p off v s a ha staged reaches
    subst ha
    obtain ⟨r, row, write⟩ := State.pathWrite_staged staged reaches v
    refine ⟨_, congrArg Host.Outcome.next write, ⟨r, row, State.reg_setReg_same _ _ _⟩, fun b hb => ?_, ?_, ?_⟩
    · refine (State.reg_setReg_ne _ _ (List.ne_of_not_mem_cons hb)).trans ?_
      cases p <;> rfl
    · cases p <;> rfl
    · cases p <;> rfl
  · intro p v s reaches
    obtain ⟨k, w, write⟩ := State.pathWrite_stnCtl_apply reaches v
    have rest := ((s.disarm p).setReg k w).openApplication_rest (s.path p).stnSel
    refine ⟨_, congrArg Host.Outcome.next write, ?_, fun j hj => ?_, ?_, ?_⟩
    · rw [State.applyAt_openApplication]
      cases p <;> rfl
    · rw [State.stn_openApplication_ne _ hj]
      cases p <;> rfl
    · rw [rest]
      cases p <;> rfl
    · rw [rest]
      cases p <;> rfl
  · intro st s a opened hst sampling cross late
    have rest := (s.setStn st (s.applied st)).takeEffect_rest (s.changedKeys st)
    have station (j : Nat) : (s.applyFilter st).stn j = (s.setStn st (s.applied st)).stn j := by
      rw [s.applyFilter_eq, rest]
      rfl
    refine ⟨_, execFilterApplication_of_due opened hst sampling cross late, ?_, ?_, fun b staged => ?_, fun j hj => ?_, ?_⟩
    · rw [station, State.stn_setStn_same]
      rfl
    · rw [station, State.stn_setStn_same]
      rfl
    · rw [s.applyFilter_eq]
      exact (s.setStn st (s.applied st)).eff_takeEffect_changedKeys st staged
    · rw [station, State.stn_setStn_ne _ _ hj]
    · rw [s.applyFilter_eq, rest]
      rfl
  · intro ch s x label hch sampling
    obtain ⟨o, formed, put⟩ := s.deliver_eq ch x
    obtain ⟨outs, others, regs, rest⟩ := s.putOutput_delivered ch put
    exact ⟨_, execFilterOutput_of_due label hch sampling, ⟨o, outs, formed.label, formed.unsuppressed, formed.disabled⟩, others,
      regs, rest⟩
  · intro st s hst sampling last once
    have ended := s.detectorEnd_ended st
    refine ⟨_, execDetectorWindowEnd_of_due hst sampling last once, fun k hk => ?_, ended.others, ended.noted, fun off => ?_,
      ended.pipe, ended.time, ended.hist⟩
    · have posted := ended.posted k hk
      exact ⟨posted.max, posted.min, posted.newMax, posted.newMin, posted.newCount⟩
    · rw [s.detectorEnd_of_unprofiled off]
      exact s.endWindow_rest st
  · intro st s notNow
    refine execFilterApplication_of_not_due fun hst sampling => ?_
    rcases notNow with closed | cross | idle | high
    · exact s.filterDue_of_not_opened closed
    · exact s.filterDue_of_cross_ne cross
    · exact absurd sampling (by simp [idle])
    · omega
  · intro st s a opened tooLate
    exact execFilterApplication_of_not_due fun _ _ => s.filterDue_of_too_late opened tooLate

end Sys2Proof.Machine

/-!
PROOFS. The history store and recalls (07): two statements that fail. A scrub in debt whose slot has not come yields to a copy
that waits (O29), and an aborted recall whose state was lost completes DATA_ERROR (O30).
-/

namespace Sys2Proof.Machine

open Sys2Proof

/-! ### A scrub in debt between its slots (07 R236, R237) -/

/-- A scrub that claims no slot reads nothing while a recall or a copy waits for its turn. -/
theorem execScrubRead_of_outranked {s : State} (n row : Nat) (ecc : EccResult) (unclaimed : s.scrubClaims = false)
    (turn : s.nextTurn.isSome = true) : exec (.scrubRead n row ecc) s = .next s := by
  have waits : s.nextTurn.isNone = false := by rw [← Option.not_isSome, turn]; rfl
  show whenDue s (s.scrubUp && (s.scrubClaims || (!s.fragmentWaits && s.nextTurn.isNone))) _ = _
  rw [unclaimed, waits, Bool.and_false, Bool.or_false, Bool.and_false, whenDue_false]

/-- A hub whose scrub is in debt while the copy of a pinned block waits. -/
def scrubOwingWithCopyWaiting : State :=
  { withHist fun h => { h with
      periods := 4, index := [(indexKey 0 0, some ⟨8388608, false, false, 0, 0⟩)]
      pins := [⟨5, 1, [(0, 0)], [], false, 3, false⟩], recalls := [{ recallOf with pin := some 5, outDone := true }] } with
    time := { hub.time with now := 10 ^ 12 } }

/-- The same hub once the scrub has read the 512 bytes that the present crossing gives it. -/
def scrubBetweenSlots : State := scrubOwingWithCopyWaiting.scrubRead 512 0 .clean

/-- Refutes O29: a scrub in debt claims one slot in 16 only (07 Table 7.8), and once it has read the 512 bytes of a crossing it
ranks behind a copy that waits, so that another SCRUB_READ in the same crossing does not advance the pass. -/
theorem not_blocksAreWrittenIndexedAndScrubbed : ¬ Obligations.BlocksAreWrittenIndexedAndScrubbed := by
  rintro ⟨-, -, scrub, -⟩
  have inDebt : scrubBetweenSlots.inDebt = true := by decide +kernel
  obtain ⟨t, answer, bytes, -⟩ := scrub 1 0 .clean scrubBetweenSlots (by decide +kernel) (by decide +kernel)
    (by decide +kernel) (by decide +kernel) (.inl inDebt)
  have idle := execScrubRead_of_outranked (s := scrubBetweenSlots) 1 0 .clean (by decide +kernel) (by decide +kernel)
  rw [idle] at answer
  cases answer
  exact absurd bytes (by decide +kernel)

/-! ### An aborted recall whose state was lost (11 R333, 14 Table 14.4) -/

/-- The recall that takes the next unit has it served when the class-3 share takes it. -/
theorem execRecallUnit_of_shared {s : State} {r : Recall} (ecc : StackRead) (row : Nat) (next : s.nextRecall = some r)
    (shared : (s.tryShare 3 0 fun t => t.recallUnit r ecc row).isSome = true) :
    exec (.recallUnit ecc row) s = .next (s.recallUnit r ecc row) := by
  show execRecallUnit ecc row s = _
  unfold execRecallUnit
  rw [next]
  unfold State.tryShare at *
  dsimp only at *
  split at shared
  · next takes => rw [if_pos takes]
  · cases shared

/-- What has been committed is among the outcomes. -/
theorem Committed.status_mem_outcomes {ring sq status : Nat} {tag : Word} {s t : State}
    (h : Committed ring sq status tag s t) : BitVec.ofNat 8 status ∈ t.outcomes.map Completion.status := by
  obtain ⟨c, added, -, -, hstatus, -⟩ := h
  exact hstatus ▸ List.mem_map_of_mem (added.mem_iff.2 (List.mem_append_right _ (List.mem_singleton_self c)))

/-- A hub that has lost the state of the one operation it had in progress, a recall. -/
def hubWithLostRecall : State := (withHist fun h => { h with recalls := [recallOf] }).loseOperation 0 0

/-- That recall as it waits to be stopped. -/
def lostRecall : Recall := { recallOf with aborted := true, lost := true }

/-- Refutes O30: the unit that stops an aborted recall completes it DATA_ERROR and not ABORTED when its state was lost
(14 Table 14.4). -/
theorem not_recallsAndPins : ¬ Obligations.RecallsAndPins := by
  rintro ⟨-, -, -, -, unit, -⟩
  have next : hubWithLostRecall.nextRecall = some lostRecall := by decide +kernel
  have shared : (hubWithLostRecall.tryShare 3 0 fun t => t.recallUnit lostRecall .clean 0).isSome = true := by decide +kernel
  obtain ⟨t, answer, -, -, aborted, -⟩ := unit .clean 0 hubWithLostRecall lostRecall next shared
  rw [execRecallUnit_of_shared .clean 0 next shared] at answer
  cases answer
  have outcomes : (hubWithLostRecall.recallUnit lostRecall .clean 0).outcomes.map Completion.status =
      [BitVec.ofNat 8 Status.dataError] := by decide +kernel
  obtain ⟨committed, -⟩ := aborted rfl
  have mem := committed.status_mem_outcomes
  rw [outcomes] at mem
  exact absurd mem (by decide)

end Sys2Proof.Machine
